-- ==== Sys2Proof/Word.lean ====
section
/-! DEFINITION. The widths of the framer: bytes, 16-bit and 32-bit quantities, and four-byte keys
(00_scope R7, 10_state R12 to R32). -/

namespace Sys2Proof

/-- A byte, 0..255 (00_scope R7). -/
abbrev Byte := BitVec 8

/-- A 16-bit quantity: capacity, interval, light id, group id, target id (10_state R13, R14, R26 to R28). -/
abbrev Half := BitVec 16

/-- A 32-bit quantity: timestamps and durations in milliseconds (TIME_W = 32, 20_memory R54). -/
abbrev Word32 := BitVec 32

/-- Four bytes used in index order, never as one integer (20_memory R45): MESHKEY and HDR_KS. -/
structure Bytes4 where
  b0 : Byte
  b1 : Byte
  b2 : Byte
  b3 : Byte
deriving DecidableEq, Repr, Inhabited

end Sys2Proof
end

