-- ==== Sys2Proof/Syntax.lean ====
section
/-! DEFINITION. The eleven operations of the command port, one constructor per row of
spec/opcode_table.json (30_encoding R78). -/

namespace Sys2Proof

/-- An operation accepted on the CMD port, with its operands (30_encoding R68 to R75, R78). -/
inductive Instr where
  /-- SETUP, format S (44_host_ops R200). -/
  | setup (key : Bytes4) (cap intMin intMax : Half) (advDur advGap : Word32)
  /-- TICK, format Z (42_scheduler R140). -/
  | tick
  /-- GENCMD, format G (40_codec R99). `rsv` is gflags bits 7:4, which must be 0: the operation tests them
  itself, after the NOT_CONFIGURED test (44_host_ops R206), so the operand keeps them. -/
  | gencmd (ct : BitVec 3) (fwd : Bool) (rsv : BitVec 4) (tid : Half) (payload : List Byte)
  /-- SCTRL, format C (40_codec R102). -/
  | sctrl (tid : Half) (light : List Byte)
  /-- ENQ, format F (41_queue R120). -/
  | enq (frame : List Byte)
  /-- ENQRAW, format G (44_host_ops R202); `rsv` as in GENCMD. -/
  | enqraw (ct : BitVec 3) (fwd : Bool) (rsv : BitVec 4) (tid : Half) (payload : List Byte)
  /-- CLR, format Z (41_queue R122). -/
  | clr
  /-- QSIZE, format Z (41_queue R123). -/
  | qsize
  /-- QEMPTY, format Z (41_queue R124). -/
  | qempty
  /-- PAIR, format P (43_pairing R160). -/
  | pair (lid gid : Half)
  /-- FRESET, format I (44_host_ops R203). -/
  | freset (lid : Half)
deriving DecidableEq, Repr

end Sys2Proof
end

