-- ==== Sys2Proof/WellFormed.lean ====
section
/-! DEFINITION. Which terms of `Instr` the command-port formats can spell: a variable-length operand
has a length that its one length byte can hold (30_encoding R71 to R73, R81). -/

namespace Sys2Proof

/-- The bytes of the variable-length operand, empty for the fixed formats. -/
def Instr.tail : Instr → List Byte
  | .gencmd _ _ _ _ payload => payload
  | .sctrl _ light => light
  | .enq frame => frame
  | .enqraw _ _ _ _ payload => payload
  | .setup .. => []
  | .tick => []
  | .clr => []
  | .qsize => []
  | .qempty => []
  | .pair .. => []
  | .freset _ => []

/-- The operation can be spelled on the CMD port: its length byte n is 0..255 (30_encoding R71 to R73). -/
def Instr.wellFormed (i : Instr) : Bool := decide (i.tail.length ≤ 255)

/-- `Instr.wellFormed` as a proposition. -/
abbrev Instr.WellFormed (i : Instr) : Prop := i.wellFormed = true

end Sys2Proof
end

