-- ==== Sys2Proof/Decode.lean ====
section
/-! DEFINITION. The command-port encoding (30_encoding R68 to R81): the decoder, total on any delimited byte
sequence, rejecting by name; the encoder; and the reading of a table row's bits. -/

namespace Sys2Proof

/-! ### Opcodes (30_encoding R78) -/

def opSetup : Byte := 0x01
def opTick : Byte := 0x02
def opGencmd : Byte := 0x10
def opSctrl : Byte := 0x11
def opEnq : Byte := 0x20
def opEnqraw : Byte := 0x21
def opClr : Byte := 0x22
def opQsize : Byte := 0x23
def opQempty : Byte := 0x24
def opPair : Byte := 0x30
def opFreset : Byte := 0x31

/-- The opcode map's first column; every other byte is reserved (30_encoding R78, R79). -/
def opcodes : List Byte :=
  [opSetup, opTick, opGencmd, opSctrl, opEnq, opEnqraw, opClr, opQsize, opQempty, opPair, opFreset]

/-- Byte 0 of an operation (30_encoding R68, R78). -/
def Instr.opcode : Instr → Byte
  | .setup .. => opSetup
  | .tick => opTick
  | .gencmd .. => opGencmd
  | .sctrl .. => opSctrl
  | .enq _ => opEnq
  | .enqraw .. => opEnqraw
  | .clr => opClr
  | .qsize => opQsize
  | .qempty => opQempty
  | .pair .. => opPair
  | .freset _ => opFreset

/-! ### Little-endian operands (20_memory R46) and gflags (30_encoding R71) -/

/-- A 16-bit operand from its bytes, least significant first. -/
def le16 (lo hi : Byte) : Half := hi ++ lo

/-- A 32-bit operand from its bytes, least significant first. -/
def le32 (b0 b1 b2 b3 : Byte) : Word32 := (b3 ++ b2) ++ (b1 ++ b0)

/-- Bits 7:0 of a 16-bit quantity. -/
def loByte (h : Half) : Byte := h.extractLsb' 0 8

/-- Bits 15:8 of a 16-bit quantity. -/
def hiByte (h : Half) : Byte := h.extractLsb' 8 8

/-- The bytes of a 16-bit quantity, least significant first. -/
def le16Bytes (h : Half) : List Byte := [loByte h, hiByte h]

/-- The bytes of a 32-bit quantity, least significant first. -/
def le32Bytes (w : Word32) : List Byte :=
  [w.extractLsb' 0 8, w.extractLsb' 8 8, w.extractLsb' 16 8, w.extractLsb' 24 8]

/-- gflags bits 2:0, the command type. -/
def gflagsCt (g : Byte) : BitVec 3 := g.extractLsb' 0 3

/-- gflags bit 3, the forward flag. -/
def gflagsFwd (g : Byte) : Bool := g.getLsbD 3

/-- gflags bits 7:4, reserved (30_encoding R80). -/
def gflagsRsv (g : Byte) : BitVec 4 := g.extractLsb' 4 4

/-- The gflags byte of format G. -/
def gflags (ct : BitVec 3) (fwd : Bool) (rsv : BitVec 4) : Byte := rsv ++ (BitVec.ofBool fwd ++ ct)

/-! ### The decoder -/

/-- What the decoder reads from a delimited byte sequence: an operation, or why there is none.
The two rejections are answered by the framer itself (44_host_ops R204, R206). -/
inductive Decoded where
  /-- A valid opcode with a sequence of the length its format requires. -/
  | instr (i : Instr)
  /-- Byte 0 is a reserved opcode (30_encoding R79). -/
  | illegalOp (op : Byte)
  /-- A valid opcode whose sequence is too short or too long for its format (30_encoding R81). -/
  | badLength (op : Byte)
deriving DecidableEq, Repr

/-- Format S after its opcode (30_encoding R70). -/
def decodeS (op : Byte) : List Byte → Decoded
  | [k0, k1, k2, k3, c0, c1, n0, n1, x0, x1, d0, d1, d2, d3, g0, g1, g2, g3] =>
    .instr (.setup ⟨k0, k1, k2, k3⟩ (le16 c0 c1) (le16 n0 n1) (le16 x0 x1) (le32 d0 d1 d2 d3) (le32 g0 g1 g2 g3))
  | _ => .badLength op

/-- Format Z after its opcode (30_encoding R69). -/
def decodeZ (op : Byte) (i : Instr) : List Byte → Decoded
  | [] => .instr i
  | _ :: _ => .badLength op

/-- Format G after its opcode (30_encoding R71): the length byte decides the length (R81). -/
def decodeG (op : Byte) (mk : BitVec 3 → Bool → BitVec 4 → Half → List Byte → Instr) : List Byte → Decoded
  | g :: t0 :: t1 :: n :: payload =>
    if payload.length = n.toNat then .instr (mk (gflagsCt g) (gflagsFwd g) (gflagsRsv g) (le16 t0 t1) payload)
    else .badLength op
  | _ => .badLength op

/-- Format C after its opcode (30_encoding R72). -/
def decodeC (op : Byte) : List Byte → Decoded
  | t0 :: t1 :: n :: light =>
    if light.length = n.toNat then .instr (.sctrl (le16 t0 t1) light) else .badLength op
  | _ => .badLength op

/-- Format F after its opcode (30_encoding R73). -/
def decodeF (op : Byte) : List Byte → Decoded
  | n :: frame => if frame.length = n.toNat then .instr (.enq frame) else .badLength op
  | _ => .badLength op

/-- Format P after its opcode (30_encoding R74). -/
def decodeP (op : Byte) : List Byte → Decoded
  | [l0, l1, g0, g1] => .instr (.pair (le16 l0 l1) (le16 g0 g1))
  | _ => .badLength op

/-- Format I after its opcode (30_encoding R75). -/
def decodeI (op : Byte) : List Byte → Decoded
  | [l0, l1] => .instr (.freset (le16 l0 l1))
  | _ => .badLength op

/-- The decoder: byte 0 and the bytes after it, delimited by the port (30_encoding R78, R79, R81).
The reserved-opcode test comes before the length test (44_host_ops R206). -/
def decodeOp (op : Byte) (operands : List Byte) : Decoded :=
  if op = opSetup then decodeS op operands
  else if op = opTick then decodeZ op .tick operands
  else if op = opGencmd then decodeG op .gencmd operands
  else if op = opSctrl then decodeC op operands
  else if op = opEnq then decodeF op operands
  else if op = opEnqraw then decodeG op .enqraw operands
  else if op = opClr then decodeZ op .clr operands
  else if op = opQsize then decodeZ op .qsize operands
  else if op = opQempty then decodeZ op .qempty operands
  else if op = opPair then decodeP op operands
  else if op = opFreset then decodeI op operands
  else .illegalOp op

/-- The operation a byte sequence spells, if it spells one. -/
def decode : List Byte → Option Instr
  | [] => none
  | op :: operands =>
    match decodeOp op operands with
    | .instr i => some i
    | .illegalOp _ => none
    | .badLength _ => none

/-! ### The encoder -/

/-- The bytes after the opcode (30_encoding R69 to R75). -/
def Instr.operandBytes : Instr → List Byte
  | .setup key cap intMin intMax advDur advGap =>
    [key.b0, key.b1, key.b2, key.b3] ++ le16Bytes cap ++ le16Bytes intMin ++ le16Bytes intMax
      ++ le32Bytes advDur ++ le32Bytes advGap
  | .tick => []
  | .gencmd ct fwd rsv tid payload =>
    [gflags ct fwd rsv] ++ le16Bytes tid ++ [BitVec.ofNat 8 payload.length] ++ payload
  | .sctrl tid light => le16Bytes tid ++ [BitVec.ofNat 8 light.length] ++ light
  | .enq frame => [BitVec.ofNat 8 frame.length] ++ frame
  | .enqraw ct fwd rsv tid payload =>
    [gflags ct fwd rsv] ++ le16Bytes tid ++ [BitVec.ofNat 8 payload.length] ++ payload
  | .clr => []
  | .qsize => []
  | .qempty => []
  | .pair lid gid => le16Bytes lid ++ le16Bytes gid
  | .freset lid => le16Bytes lid

/-- The byte sequence of an operation on the CMD port (30_encoding R68). -/
def encode (i : Instr) : List Byte := i.opcode :: i.operandBytes

/-! ### Table rows as bit patterns

The host numbers a row's bits from the least significant bit of byte 0. The port delivers delimited sequences
(30_encoding R81), so the length of the sequence is worked out here from the opcode and the length byte (log 13). -/

/-- The length the format of opcode `op` requires, given the sequence's bytes by index (30_encoding R69 to R75);
1 for a reserved opcode, which has no format (R79). -/
def opLength (op : Byte) (byteAt : Nat → Byte) : Nat :=
  if op = opSetup then 19
  else if op = opGencmd then 5 + (byteAt 4).toNat
  else if op = opSctrl then 4 + (byteAt 3).toNat
  else if op = opEnq then 2 + (byteAt 1).toNat
  else if op = opEnqraw then 5 + (byteAt 4).toNat
  else if op = opPair then 5
  else if op = opFreset then 3
  else 1

/-- Byte k of a pattern of `nbits` bits, zero above them. -/
def patternByte (nbits w k : Nat) : Byte := BitVec.ofNat 8 (w % 2 ^ nbits / 2 ^ (8 * k))

/-- Byte 0 of the sequence whose bits are w. -/
def patternOpcode (nbits w : Nat) : Byte := patternByte nbits w 0

/-- The bytes after byte 0 of the sequence whose bits are w, delimited at the length its format requires or at
the pattern's own length where that is longer. -/
def patternOperands (nbits w : Nat) : List Byte :=
  let len := max (nbits / 8) (opLength (patternOpcode nbits w) (patternByte nbits w))
  (List.range (len - 1)).map fun k => patternByte nbits w (k + 1)

/-- The instruction the decoder reads from an instruction whose bits are w. -/
def decodeTableWord (nbits w : Nat) : Option Instr :=
  decode (patternOpcode nbits w :: patternOperands nbits w)

end Sys2Proof
end

