-- ==== Sys2Proof/Config.lean ====
section
/-! DEFINITION. What the spec leaves OPEN (00_scope R5, the list at the end of 92_eei_decisions): a record
`Params` that every shared operation takes as an argument, and the framer's own record `Config.framer`, each member
of which is a constant without a body, so that nothing proved of the machine can rest on its value (log 2).
Constraints the spec puts on a parameter hold by the form the parameter is given (log 3, 4, 5). -/

namespace Sys2Proof

/-- A radio value the framer passes through and never interprets (42_scheduler R143, log 11). -/
abbrev RadioValue := Nat

/-- The OPEN parameters of 00_scope R5. -/
structure Params where
  /-- HDR_KS, the fixed public keystream of body bytes 0 to 3 (92 D9). -/
  hdrKs : Bytes4
  /-- PREAMBLE, the six address bytes (92 D9). -/
  preamble : Vector Byte 6
  /-- MFR_ID (92 D9). -/
  mfrId : Half
  /-- ADV_FLAGS, the data byte of the flags AD structure (92 D9). -/
  advFlags : Byte
  /-- HDR2_KEY_INDEX: which mesh-key byte is header byte 2 (92 D8). -/
  hdr2KeyIndex : Fin 4
  /-- RF_LEN: the length of RF_FRAME's output as a function of the body's length (40_codec R98). -/
  rfLen : Nat → Nat
  /-- RF_FRAME byte by byte: byte k of the frame made of a preamble and a body (40_codec R98, log 3). -/
  rfByte : Vector Byte 6 → List Byte → Nat → Byte
  /-- QDEPTH_MAX less 100: the FIFO depth is at least 100 (92 D7, log 5). -/
  qdepthExtra : Nat
  /-- T_REPLACE in milliseconds (92 D26). -/
  tReplace : Nat
  /-- PAIR_SEQ_DERIVE (92 D27). -/
  pairSeqDerive : Half → Half → Byte
  /-- PAIR_SEQ_INIT (92 D27). -/
  pairSeqInit : Byte
  /-- PAIR_SEQ_STEP (92 D27). -/
  pairSeqStep : Byte → Byte
  /-- DISCOVERY_FRAME, of which the first 31 bytes count (43_pairing R180, log 4). -/
  discoveryRaw : Bytes4 → Half → Half → List Byte
  /-- PAIRING_FRAME, which counts wherever its output is one that 43_pairing R181, R182 and R185 allow (log 4). -/
  pairingRaw : Bytes4 → Half → Half → Byte → List Byte
  /-- PAIR_CHECK, the placeholder trailer (43_pairing R185, 93 U3). -/
  pairCheck : List Byte → List Byte
  /-- ADV_TYPE_NONCONN (92 D29). -/
  advTypeNonconn : RadioValue
  /-- ADV_ADDR_TYPE (92 D29). -/
  advAddrType : RadioValue
  /-- ADV_CHANNEL_MAP (92 D29). -/
  advChannelMap : RadioValue
  /-- ADV_FILTER_POLICY (92 D29). -/
  advFilterPolicy : RadioValue
  /-- PAIR_INT_MIN (92 D29). -/
  pairIntMin : RadioValue
  /-- PAIR_INT_MAX (92 D29). -/
  pairIntMax : RadioValue
  /-- SCAN_WINDOW (92 D29). -/
  scanWindow : RadioValue
  /-- The radio's answer to a call for which State holds none: the k-th such answer is free (20_memory R50, log 6). -/
  radioCode : Nat → Nat

/-- The light-state input of the mapper outside the framer (45_light_payload_contract R220): exact rational
numbers, and four independent mode bits. -/
structure LightState where
  on : Bool
  white : Bool
  rgb : Bool
  coldWarmWhite : Bool
  colorTemperature : Bool
  brightness : Rat
  red : Rat
  green : Rat
  blue : Rat
  warm : Rat
  cold : Rat
  mireds : Rat
deriving DecidableEq, Repr

namespace Config

/-- The mapper's output for a light that is on with a channel outside [0,1]: unspecified (45 R220, 93 U8, log 16). -/
opaque lightOutside : LightState → List Byte

opaque hdrKs : Bytes4
opaque preamble : Vector Byte 6
opaque mfrId : Half
opaque advFlags : Byte
opaque hdr2KeyIndex : Fin 4
opaque rfLen : Nat → Nat
opaque rfByte : Vector Byte 6 → List Byte → Nat → Byte
opaque qdepthExtra : Nat
opaque tReplace : Nat
opaque pairSeqDerive : Half → Half → Byte
opaque pairSeqInit : Byte
opaque pairSeqStep : Byte → Byte
opaque discoveryRaw : Bytes4 → Half → Half → List Byte
opaque pairingRaw : Bytes4 → Half → Half → Byte → List Byte
opaque pairCheck : List Byte → List Byte
opaque advTypeNonconn : RadioValue
opaque advAddrType : RadioValue
opaque advChannelMap : RadioValue
opaque advFilterPolicy : RadioValue
opaque pairIntMin : RadioValue
opaque pairIntMax : RadioValue
opaque scanWindow : RadioValue
opaque radioCode : Nat → Nat

/-- The parameters of the framer that `Machine.exec` and `Machine.step` model. -/
def framer : Params where
  hdrKs := hdrKs
  preamble := preamble
  mfrId := mfrId
  advFlags := advFlags
  hdr2KeyIndex := hdr2KeyIndex
  rfLen := rfLen
  rfByte := rfByte
  qdepthExtra := qdepthExtra
  tReplace := tReplace
  pairSeqDerive := pairSeqDerive
  pairSeqInit := pairSeqInit
  pairSeqStep := pairSeqStep
  discoveryRaw := discoveryRaw
  pairingRaw := pairingRaw
  pairCheck := pairCheck
  advTypeNonconn := advTypeNonconn
  advAddrType := advAddrType
  advChannelMap := advChannelMap
  advFilterPolicy := advFilterPolicy
  pairIntMin := pairIntMin
  pairIntMax := pairIntMax
  scanWindow := scanWindow
  radioCode := radioCode

end Config

end Sys2Proof
end

