-- ==== Sys2Proof/Machine/State.lean ====
section
/-! DEFINITION. Everything the spec gives the framer to hold: the registers and the command FIFO of 10_state, and
the ports of 20_memory R49, which stand in the state because a step has no other argument. Plain data throughout. -/

namespace Sys2Proof.Machine

/-- A FIFO entry (10_state R19). -/
structure Command where
  /-- The MeshFrame to transmit. -/
  frame : List Byte
  /-- enqueued_at: NOW of the operation that created the entry. No rule reads it. -/
  enqAt : Word32
  /-- retry_count: written 0 at creation, then never again (93 U2). -/
  retry : Byte
deriving DecidableEq, Repr

/-- MODE (10_state R20). -/
inductive Mode where
  | normal
  | pairing
deriving DecidableEq, Repr

/-- ADV_STATE (10_state R21); the encoding 3 does not exist (93 U6). -/
inductive AdvState where
  | idle
  | advertising
  | gap
deriving DecidableEq, Repr

/-- PAIR_PHASE (10_state R23). -/
inductive PairPhase where
  | discovery
  | pairing
deriving DecidableEq, Repr

/-- The argument record of radio.START_ADV (20_memory R50, 42_scheduler R143). -/
structure AdvParams where
  intMin : RadioValue
  intMax : RadioValue
  advType : RadioValue
  addrType : RadioValue
  channelMap : RadioValue
  filterPolicy : RadioValue
deriving DecidableEq, Repr

/-- The names of the five radio primitives (20_memory R50). -/
inductive RadioPrim where
  | cfgAdvData
  | startAdv
  | stopAdv
  | stopScan
  | startScan
deriving DecidableEq, Repr

/-- One call on the RADIO port, with its arguments (20_memory R50). -/
inductive RadioCall where
  | cfgAdvData (raw : List Byte)
  | startAdv (params : AdvParams)
  | stopAdv
  | stopScan
  | startScan (window : RadioValue)
deriving DecidableEq, Repr

/-- A WARN event: its kind and info (60_exceptions R230). -/
inductive Warning where
  | queueFull (qlen cap : Nat)
  | radioConfigFailure (rc : Nat)
  | radioStartFailure (rc : Nat)
  | oversizedPayload (len : Nat)
  | radioOtherFailure (prim : RadioPrim) (rc : Nat)
  | illegalOp (op : Byte)
  | notConfigured (op : Byte)
  | badOperand (op : Byte)
  | busy
deriving DecidableEq, Repr

/-- The status of a response (30_encoding R77). -/
inductive Status where
  | ok
  | queueFull
  | oversized
  | illegalOp
  | notConfigured
  | badOperand
  | busy
deriving DecidableEq, Repr

/-- A response on the RSP port: the status and the data bytes after it (30_encoding R76). -/
structure Response where
  status : Status
  data : List Byte
deriving DecidableEq, Repr

/-- What leaves the framer: a radio call with the code the radio answered, a WARN event, a response
(20_memory R50 to R52). -/
inductive Event where
  | radio (call : RadioCall) (rc : Nat)
  | warn (w : Warning)
  | rsp (r : Response)
deriving DecidableEq, Repr

/-- What the host presents: one delimited operation with the time the NOW port shows when it starts
(20_memory R51, R54; 30_encoding R81), or the RESET input (70_reset R260). -/
inductive HostInput where
  | op (opcode : Byte) (operands : List Byte) (now : Word32)
  | reset
deriving DecidableEq, Repr

/-- The registers and the FIFO (10_state R12 to R32). -/
structure Registers where
  /-- MESHKEY (R12). -/
  meshKey : Bytes4
  /-- CAP (R13). -/
  cap : Half
  /-- ADV_INT_MIN (R14). -/
  advIntMin : Half
  /-- ADV_INT_MAX (R14). -/
  advIntMax : Half
  /-- ADV_DUR (R15). -/
  advDur : Word32
  /-- ADV_GAP (R16). -/
  advGap : Word32
  /-- CONFIGURED (R17). -/
  configured : Bool
  /-- SEQ (R18). -/
  seq : Byte
  /-- Q, oldest entry first (R19). -/
  q : List Command
  /-- MODE (R20). -/
  mode : Mode
  /-- ADV_STATE (R21). -/
  advState : AdvState
  /-- STATE_T (R22). -/
  stateT : Word32
  /-- PAIR_PHASE (R23). -/
  pairPhase : PairPhase
  /-- PAIR_T0 (R24). -/
  pairT0 : Word32
  /-- PHASE_T (R25). -/
  phaseT : Word32
  /-- BASE_ID (R26). -/
  baseId : Half
  /-- GROUP_ID (R27). -/
  groupId : Half
  /-- CUR_ID (R28). -/
  curId : Half
  /-- PAIR_SEQ_START (R29). -/
  pairSeqStart : Byte
  /-- PAIR_SEQ (R30). -/
  pairSeq : Byte
  /-- LAST_ADV_T (R31). -/
  lastAdvT : Word32
  /-- PAIR_DIRTY (R32). -/
  pairDirty : Bool
deriving DecidableEq, Repr

/-- The ports (20_memory R49): inputs still to come, and the trace of what has left the framer. -/
structure Ports where
  /-- CMD and RESET: what the host contexts present, in the one total order (20_memory R53, log 7). -/
  pending : List HostInput
  /-- NOW as sampled at the start of the current operation (20_memory R54). -/
  now : Word32
  /-- The radio's answers to the calls to come, in call order (20_memory R50, log 6). -/
  radioIn : List Nat
  /-- The model's own field: how many answers were drawn freely because `radioIn` was used up (log 6). -/
  radioFree : Nat
  /-- RADIO, WARN and RSP events, oldest first (20_memory R50 to R52, log 8). -/
  trace : List Event
deriving DecidableEq, Repr

/-- The state of the machine. -/
structure State extends Registers, Ports where
deriving DecidableEq, Repr

/-- Why a step of the model stops. The framer itself has no fault (60_exceptions R240): its errors are next states. -/
inductive Fault where
  /-- Raised by QPush when QLEN ≥ QDEPTH_MAX, a use of QPush that 20_memory R41 leaves undefined (ENQ, ENQRAW and
  FRESET push). Safe: the model stops where the spec says nothing, and no state that meets `State.Inv` gets there
  (log 10). -/
  | fifoOverflow
deriving DecidableEq, Repr

/-- Why a step is refused. -/
inductive Refusal where
  /-- Raised by an arm of `exec` for an operation that has no meaning yet; no arm raises it. Safe. -/
  | notModelled (mnemonic : String)
deriving DecidableEq, Repr

/-- The registers after RESET (10_state R36). Those the spec leaves unspecified hold zero (log 1). -/
def Registers.reset : Registers where
  meshKey := ⟨0, 0, 0, 0⟩
  cap := 100
  advIntMin := 0
  advIntMax := 0
  advDur := 0
  advGap := 0
  configured := false
  seq := 1
  q := []
  mode := .normal
  advState := .idle
  stateT := 0
  pairPhase := .discovery
  pairT0 := 0
  phaseT := 0
  baseId := 0
  groupId := 0
  curId := 0
  pairSeqStart := 0
  pairSeq := 0
  lastAdvT := 0
  pairDirty := false

/-- The machine right after reset, with nothing presented and nothing sent (10_state R36, 70_reset R260, log 7). -/
def State.reset : State where
  toRegisters := Registers.reset
  pending := []
  now := 0
  radioIn := []
  radioFree := 0
  trace := []

end Sys2Proof.Machine
end

