-- ==== Sys2Proof/Machine/Flags.lean ====
section
/-! DEFINITION. The framer has no condition codes and no status register (10_state R33). What an operation reports is
the status byte of its response, and each WARN event has a code: their numbers are here (30_encoding R77,
60_exceptions R230). -/

namespace Sys2Proof.Machine

/-- The status byte (30_encoding R77). -/
def Status.code : Status → Byte
  | .ok => 0x00
  | .queueFull => 0x01
  | .oversized => 0x02
  | .illegalOp => 0x03
  | .notConfigured => 0x04
  | .badOperand => 0x05
  | .busy => 0x06

/-- The bytes of a response on RSP (30_encoding R76). -/
def Response.bytes (r : Response) : List Byte := r.status.code :: r.data

/-- The code of a WARN event (60_exceptions R230). -/
def Warning.code : Warning → Nat
  | .queueFull .. => 1
  | .radioConfigFailure _ => 2
  | .radioStartFailure _ => 3
  | .oversizedPayload _ => 4
  | .radioOtherFailure .. => 5
  | .illegalOp _ => 6
  | .notConfigured _ => 7
  | .badOperand _ => 8
  | .busy => 9

/-- The primitive a radio call calls (20_memory R50). -/
def RadioCall.prim : RadioCall → RadioPrim
  | .cfgAdvData _ => .cfgAdvData
  | .startAdv _ => .startAdv
  | .stopAdv => .stopAdv
  | .stopScan => .stopScan
  | .startScan _ => .startScan

end Sys2Proof.Machine
end

