-- ==== Sys2Proof/Machine/Ops.lean ====
section
/-! DEFINITION. The operations every meaning is written over: the output ports, the error report (the framer's whole
counterpart of taking an exception), the radio port, the FIFO primitives, time, the gate, reset. -/

namespace Sys2Proof.Machine

/-- What an operation or a step answers. -/
abbrev Result := Host.Outcome State Fault Refusal

/-! ### Constants the spec fixes (00_scope R5) -/

/-- FRAME_MAX, the longest frame a slot or a port carries. -/
def frameMax : Nat := 255
/-- LIGHT_MAX, the longest light payload SCTRL accepts. -/
def lightMax : Nat := 8
/-- INNER_LEN, the length of single_control's inner structure. -/
def innerLen : Nat := 12
/-- ADV_LIMIT, the radio's limit on advertisement data. -/
def advLimit : Nat := 31
/-- CT_CONTROL, the command type of light control. -/
def ctControl : BitVec 3 := 5
/-- FRESET_LEN, the length of the zeroed factory-reset payload. -/
def fresetLen : Nat := 7
/-- T_DISCOVERY in ms. -/
def tDiscovery : Nat := 4000
/-- T_SLOT in ms. -/
def tSlot : Nat := 5000
/-- T_SESSION in ms. -/
def tSession : Nat := 60000
/-- QDEPTH_MAX, at least 100 (92 D7, log 5). -/
def qdepthMax (P : Params) : Nat := P.qdepthExtra + 100

/-! ### Output ports (20_memory R50 to R52) -/

/-- Put one event on the trace. -/
def State.emit (s : State) (e : Event) : State := { s with trace := s.trace ++ [e] }

/-- `raise Kind(info)`: one WARN event and nothing else (60_exceptions R231). -/
def State.warn (s : State) (w : Warning) : State := s.emit (.warn w)

/-- The one response of an operation (30_encoding R76). -/
def State.respond (s : State) (status : Status) (data : List Byte) : State := s.emit (.rsp ⟨status, data⟩)

/-! ### Error reports

The framer takes no trap: an error saves nothing, switches nothing and transfers control nowhere; the operation completes
with a WARN event and a status, and the next one is accepted normally (60_exceptions R240, R241). -/

/-- An operation turned away: `raise`, then `respond`, no other change (60_exceptions R230, R231). -/
def State.reject (s : State) (w : Warning) (status : Status) : State := (s.warn w).respond status []

/-- BAD_OPERAND of the operation with this opcode (44_host_ops R206). -/
def State.rejectOperand (s : State) (op : Byte) : State := s.reject (.badOperand op) .badOperand

/-- What the framer answers to a sequence that is no operation: a reserved opcode or a wrong length
(44_host_ops R204, R206). -/
def State.rejectIllegal (s : State) (op : Byte) : State := s.reject (.illegalOp op) .illegalOp

/-- The NOT_CONFIGURED gate before the body of an operation (44_host_ops R205). -/
def gated (op : Byte) (s : State) (body : Result) : Result :=
  if s.configured then body else .next (s.reject (.notConfigured op) .notConfigured)

/-! ### The RADIO port (20_memory R50) -/

/-- The code the radio answers the next call with: the first one given, or a free value (log 6). -/
def State.nextCode (P : Params) (s : State) : Nat :=
  match s.radioIn with
  | rc :: _ => rc
  | [] => P.radioCode s.radioFree

/-- The state after that code is drawn. -/
def State.drawCode (s : State) : State :=
  match s.radioIn with
  | _ :: rest => { s with radioIn := rest }
  | [] => { s with radioFree := s.radioFree + 1 }

/-- `radio.<PRIM>(args) -> rc`: the code, and the state with the call on the trace (00_scope R7, 20_memory R50). -/
def State.radio (P : Params) (call : RadioCall) (s : State) : Nat × State :=
  let rc := s.nextCode P
  (rc, s.drawCode.emit (.radio call rc))

/-- A call of STOP_ADV, STOP_SCAN or START_SCAN: a failure is logged and the operation goes on (60_exceptions R237). -/
def State.radioLogged (P : Params) (call : RadioCall) (s : State) : State :=
  let r := s.radio P call
  if r.1 = 0 then r.2 else r.2.warn (.radioOtherFailure call.prim r.1)

/-! ### The command FIFO (20_memory R41 to R44) -/

/-- QPush, defined only when QLEN < QDEPTH_MAX (20_memory R41). -/
def State.qPush (P : Params) (c : Command) (s : State) : Option State :=
  if s.q.length < qdepthMax P then some { s with q := s.q ++ [c] } else none

/-- QPop: the oldest entry and the state without it, or `empty` (20_memory R42). -/
def State.qPop (s : State) : Option (Command × State) :=
  match s.q with
  | [] => none
  | c :: rest => some (c, { s with q := rest })

/-- QClear (20_memory R43). -/
def State.qClear (s : State) : State := { s with q := [] }

/-- QLEN (20_memory R44). -/
def State.qLen (s : State) : Nat := s.q.length

/-! ### Time (20_memory R54, R55) -/

/-- elapsed(t) = (NOW - t) mod 2^32, unsigned. -/
def State.elapsed (s : State) (t : Word32) : Nat := (s.now - t).toNat

/-- The test `elapsed(t) ≥ d`. -/
def State.expired (s : State) (t : Word32) (d : Nat) : Bool := decide (d ≤ s.elapsed t)

/-! ### Reset and the CMD port -/

/-- RESET at an operation boundary: the registers of 10_state R36, no event, no radio call (70_reset R260).
The ports' inputs and the trace are not the framer's registers and stay (log 15). -/
def State.takeReset (s : State) : State := { s with toRegisters := Registers.reset }

/-- The state in which an operation starts: its input taken off the port, NOW sampled (20_memory R51, R54). -/
def State.accept (s : State) (rest : List HostInput) (t : Word32) : State := { s with pending := rest, now := t }

end Sys2Proof.Machine
end

