-- ==== Sys2Proof/Machine/Operands.lean ====
section
/-! DEFINITION. The operand tests of the format G operations, and the parameter records START_ADV is called with. -/

namespace Sys2Proof.Machine

/-- Whether format G's reserved bits are clear (30_encoding R80). -/
def reservedClear (rsv : BitVec 4) : Bool := rsv == 0

/-- Whether the frame of a body with `n` payload bytes fits FRAME_MAX: RF_LEN(4 + n) ≤ FRAME_MAX (40_codec R99). -/
def frameFits (P : Params) (n : Nat) : Bool := decide (P.rfLen (4 + n) ≤ frameMax)

/-- NORMAL_PARAMS (42_scheduler R143). -/
def normalParams (P : Params) (s : State) : AdvParams where
  intMin := s.advIntMin.toNat
  intMax := s.advIntMax.toNat
  advType := P.advTypeNonconn
  addrType := P.advAddrType
  channelMap := P.advChannelMap
  filterPolicy := P.advFilterPolicy

/-- PAIRING_PARAMS (43_pairing R186). -/
def pairingParams (P : Params) : AdvParams where
  intMin := P.pairIntMin
  intMax := P.pairIntMax
  advType := P.advTypeNonconn
  addrType := P.advAddrType
  channelMap := P.advChannelMap
  filterPolicy := P.advFilterPolicy

end Sys2Proof.Machine
end

