-- ==== Sys2Proof/Machine/Codec.lean ====
section
/-! DEFINITION. PacketCodec (40_codec): the sequence counter, header packing, checksum, cipher, framing, the
single_control inner structure, advertisement-data wrapping, and the operations GENCMD and SCTRL. -/

namespace Sys2Proof.Machine

/-- The successor of a sequence number in SEQNEXT (40_codec R90). -/
def seqSucc (v : Byte) : Byte :=
  let n := v + 1
  if 255 ≤ n.toNat then 1 else n

/-- SEQNEXT: the value this frame carries, and the state with SEQ advanced (40_codec R90). -/
def State.seqNext (s : State) : Byte × State := (s.seq, { s with seq := seqSucc s.seq })

/-- HDR0 (40_codec R92, 30_encoding R61). -/
def hdr0 (ct : BitVec 3) (tid : Half) (fwd : Bool) : Byte :=
  BitVec.ofNat 8 (((tid.toNat >>> 8) &&& 0x0F) ||| ((ct.toNat &&& 0x07) <<< 4) ||| (if fwd then 0x80 else 0x00))

/-- CHECKSUM: the sum mod 256 of all bytes but the one at index 3 (40_codec R93). -/
def checksum (body : List Byte) : Byte := (body.eraseIdx 3).foldl (· + ·) 0

/-- Byte `i & 3` of a four-byte key (40_codec R94). -/
def keyByte (k : Bytes4) (i : Nat) : Byte :=
  match i % 4 with
  | 0 => k.b0
  | 1 => k.b1
  | 2 => k.b2
  | _ => k.b3

/-- The keystream byte of body index i (40_codec R94). -/
def keystream (hdrKs meshKey : Bytes4) (i : Nat) : Byte :=
  if i ≤ 3 then keyByte hdrKs i else keyByte meshKey i

/-- XORCRYPT of the bytes that stand from body index i on (40_codec R94). -/
def xorFrom (hdrKs meshKey : Bytes4) (i : Nat) : List Byte → List Byte
  | [] => []
  | b :: bs => (b ^^^ keystream hdrKs meshKey i) :: xorFrom hdrKs meshKey (i + 1) bs

/-- XORCRYPT of a whole body (40_codec R94). -/
def xorCrypt (hdrKs meshKey : Bytes4) (body : List Byte) : List Byte := xorFrom hdrKs meshKey 0 body

/-- The plain body with its checksum in place: steps 2 and 3 of GENBODY (40_codec R97, 30_encoding R60 to R62). -/
def plainBody (P : Params) (meshKey : Bytes4) (seq : Byte) (ct : BitVec 3) (tid : Half) (payload : List Byte)
    (fwd : Bool) : List Byte :=
  let b := [hdr0 ct tid fwd, seq, keyByte meshKey P.hdr2KeyIndex.val, 0x00] ++ payload
  b.set 3 (checksum b)

/-- GENBODY: the encrypted body, and the state with SEQ advanced (40_codec R97). -/
def State.genBody (P : Params) (ct : BitVec 3) (tid : Half) (payload : List Byte) (fwd : Bool) (s : State) :
    List Byte × State :=
  let r := s.seqNext
  (xorCrypt P.hdrKs s.meshKey (plainBody P s.meshKey r.1 ct tid payload fwd), r.2)

/-- RF_FRAME(PREAMBLE, body): any function whose output length is RF_LEN of the body's length (40_codec R98, log 3). -/
def rfFrame (P : Params) (body : List Byte) : List Byte :=
  (List.range (P.rfLen body.length)).map (P.rfByte P.preamble body)

/-- A whole frame: RF_FRAME(PREAMBLE, GENBODY(ct, tid, payload, fwd)), and the state with SEQ advanced (40_codec R99). -/
def State.genFrame (P : Params) (ct : BitVec 3) (tid : Half) (payload : List Byte) (fwd : Bool) (s : State) :
    List Byte × State :=
  let r := s.genBody P ct tid payload fwd
  (rfFrame P r.1, r.2)

/-- INNER, the 12-byte inner structure (40_codec R101, 30_encoding R63, R64). -/
def innerStructure (tid : Half) (light : List Byte) : List Byte :=
  [BitVec.ofNat 8 (2 ||| ((light.length + 1) <<< 4)), loByte tid] ++ light
    ++ List.replicate (innerLen - 2 - light.length) 0x00

/-- ADWRAP, the advertisement data of a frame, at most 31 bytes (40_codec R104, 30_encoding R66). -/
def adWrap (P : Params) (frame : List Byte) : List Byte :=
  let m := min frame.length (advLimit - 7)
  [0x02, 0x01, P.advFlags, BitVec.ofNat 8 (m + 3), 0xFF, loByte P.mfrId, hiByte P.mfrId] ++ frame.take m

/-- The response data of a generated frame: its length, then its bytes (30_encoding R76). -/
def frameData (frame : List Byte) : List Byte := BitVec.ofNat 8 frame.length :: frame

/-- GENCMD over any parameters (40_codec R99). -/
def gencmd (P : Params) (ct : BitVec 3) (fwd : Bool) (rsv : BitVec 4) (tid : Half) (payload : List Byte) (s : State) :
    Result :=
  gated opGencmd s <|
    if !reservedClear rsv then .next (s.rejectOperand opGencmd)
    else if !frameFits P payload.length then .next (s.rejectOperand opGencmd)
    else
      let r := s.genFrame P ct tid payload fwd
      .next (r.2.respond .ok (frameData r.1))

/-- SCTRL over any parameters (40_codec R102, R103). -/
def sctrl (P : Params) (tid : Half) (light : List Byte) (s : State) : Result :=
  gated opSctrl s <|
    if lightMax < light.length then .next (s.reject (.oversizedPayload light.length) .oversized)
    else if !frameFits P innerLen then .next (s.rejectOperand opSctrl)
    else
      let r := s.genFrame P ctControl tid (innerStructure tid light) true
      .next (r.2.respond .ok (frameData r.1))

/-- The meaning of GENCMD (40_codec R99). -/
def execGencmd (ct : BitVec 3) (fwd : Bool) (rsv : BitVec 4) (tid : Half) (payload : List Byte) (s : State) : Result :=
  gencmd Config.framer ct fwd rsv tid payload s

/-- The meaning of SCTRL (40_codec R102). -/
def execSctrl (tid : Half) (light : List Byte) (s : State) : Result := sctrl Config.framer tid light s

end Sys2Proof.Machine
end

