-- ==== Sys2Proof/Machine/Queue.lean ====
section
/-! DEFINITION. CommandQueue (41_queue): ENQ, CLR, QSIZE, QEMPTY, and the internal DEQ. -/

namespace Sys2Proof.Machine

/-- The body of ENQ, which ENQRAW and FRESET share: test QLEN ≥ CAP, then QPush (41_queue R120). -/
def enqBody (P : Params) (frame : List Byte) (s : State) : Result :=
  if s.cap.toNat ≤ s.qLen then .next (s.reject (.queueFull s.qLen s.cap.toNat) .queueFull)
  else
    match s.qPush P { frame := frame, enqAt := s.now, retry := 0 } with
    | some s' => .next (s'.respond .ok [])
    | none => .fault .fifoOverflow

/-- DEQ: the oldest entry, removed, or `empty` (41_queue R121). -/
def State.deq (s : State) : Option (Command × State) := s.qPop

/-- ENQ over any parameters (41_queue R120). -/
def enq (P : Params) (frame : List Byte) (s : State) : Result := gated opEnq s (enqBody P frame s)

/-- The meaning of ENQ (41_queue R120). -/
def execEnq (frame : List Byte) (s : State) : Result := enq Config.framer frame s

/-- The meaning of CLR (41_queue R122). -/
def execClr (s : State) : Result := gated opClr s (.next (s.qClear.respond .ok []))

/-- The meaning of QSIZE (41_queue R123). -/
def execQsize (s : State) : Result := gated opQsize s (.next (s.respond .ok (le16Bytes (BitVec.ofNat 16 s.qLen))))

/-- The meaning of QEMPTY (41_queue R124). -/
def execQempty (s : State) : Result :=
  gated opQempty s (.next (s.respond .ok [if s.qLen = 0 then 0x01 else 0x00]))

end Sys2Proof.Machine
end

