-- ==== Sys2Proof/Machine/Pairing.lean ====
section
/-! DEFINITION. PairingSession (43_pairing): the frame builders, entering a session, the pairing tick. -/

namespace Sys2Proof.Machine

/-! ### The frame builders (43_pairing R180 to R185) -/

/-- DISCOVERY_FRAME: any function of its arguments with at most 31 bytes of output (43_pairing R180, log 4). -/
def discoveryFrame (P : Params) (key : Bytes4) (baseId groupId : Half) : List Byte :=
  (P.discoveryRaw key baseId groupId).take advLimit

/-- The ASCII character of a hexadecimal digit (43_pairing R182). -/
def hexChar (upper : Bool) (d : BitVec 4) : Byte :=
  if d.toNat < 10 then BitVec.ofNat 8 (0x30 + d.toNat)
  else BitVec.ofNat 8 ((if upper then 0x41 else 0x61) + (d.toNat - 10))

/-- The two ASCII characters of a byte, high digit first (43_pairing R182). -/
def hexByte (upper : Bool) (b : Byte) : List Byte :=
  [hexChar upper (b.extractLsb' 4 4), hexChar upper (b.extractLsb' 0 4)]

/-- The bytes of the mesh key in index order. -/
def Bytes4.toList (key : Bytes4) : List Byte := [key.b0, key.b1, key.b2, key.b3]

/-- The eight upper-case characters that spell the mesh key in index order. -/
def keyDigits (key : Bytes4) : List Byte := (Bytes4.toList key).flatMap (hexByte true)

/-- The character spells the hexadecimal digit, in either case (43_pairing R182). -/
def isHexDigit (d : BitVec 4) (c : Byte) : Bool := c == hexChar true d || c == hexChar false d

/-- The two characters spell the byte, high digit first (43_pairing R182). -/
def isHexByte (b c d : Byte) : Bool := isHexDigit (b.extractLsb' 4 4) c && isHexDigit (b.extractLsb' 0 4) d

/-- The packet spells every byte of the list, two characters per byte, at places that do not overlap; the places and
the order of the bytes are free (43_pairing R182, log 4). -/
def spells : List Byte → List Byte → Bool
  | _, [] => true
  | c :: d :: rest, k :: ks =>
    ((k :: ks).any fun b => isHexByte b c d && spells rest ((k :: ks).erase b)) || spells (d :: rest) (k :: ks)
  | [], _ :: _ => false
  | [_], _ :: _ => false

/-- PAIR_CHECK as a trailer. The bytes that precede it and the trailer have at most 31 bytes together (43_pairing R181),
so the cut made here changes no trailer of a packet that carries eight digits (43_pairing R185, log 4). -/
def pairTrailer (P : Params) (bytes : List Byte) : List Byte :=
  (P.pairCheck bytes).take (advLimit - min bytes.length 8)

/-- The packet ends in PAIR_CHECK of the bytes that precede it (43_pairing R185). -/
def endsInTrailer (P : Params) (out : List Byte) : Bool :=
  (List.range (out.length + 1)).any fun n => out == out.take n ++ pairTrailer P (out.take n)

/-- All that the spec states of an output of PAIRING_FRAME: its length, the key's digits, the trailer
(43_pairing R181, R182, R185). -/
def pairingLegal (P : Params) (key : Bytes4) (out : List Byte) : Bool :=
  decide (out.length ≤ advLimit) && spells out (Bytes4.toList key) && endsInTrailer P out

/-- PAIRING_FRAME: an uninterpreted function of its arguments, limited by what the spec states of it and by nothing
else. The last line only keeps parameters out that break those rules: a function that meets them is taken as it is, so
that every PAIRING_FRAME the spec allows is an instance (30_encoding R67, 43_pairing R181, log 4). -/
def pairingFrame (P : Params) (key : Bytes4) (lightId groupId : Half) (pairSeq : Byte) : List Byte :=
  let out := P.pairingRaw key lightId groupId pairSeq
  if pairingLegal P key out then out else keyDigits key ++ pairTrailer P (keyDigits key)

/-! ### Entering a session -/

/-- Steps 4 to 10 of PAIR: the registers of a new session (43_pairing R160). -/
def State.openSession (P : Params) (lid gid : Half) (s : State) : State :=
  { s with
    advState := .idle
    mode := .pairing
    pairT0 := s.now
    phaseT := s.now
    lastAdvT := s.now
    pairPhase := .discovery
    baseId := lid
    curId := lid
    groupId := gid
    pairSeqStart := P.pairSeqDerive lid gid
    pairSeq := P.pairSeqDerive lid gid
    pairDirty := true }

/-- PAIR over any parameters (43_pairing R160, R170). -/
def pair (P : Params) (lid gid : Half) (s : State) : Result :=
  gated opPair s <|
    let s1 := s.radioLogged P .stopScan
    let s2 := s1.radioLogged P .stopAdv
    .next ((s2.qClear.openSession P lid gid).respond .ok [])

/-- The meaning of PAIR (43_pairing R160). -/
def execPair (lid gid : Half) (s : State) : Result := pair Config.framer lid gid s

/-! ### The pairing tick -/

/-- The session timeout (43_pairing R163). -/
def State.timeout (P : Params) (s : State) : State :=
  let s1 : State := { s with mode := .normal, advState := .idle }
  (s1.radioLogged P .stopAdv).radioLogged P (.startScan P.scanWindow)

/-- Dwell expiry (43_pairing R164). -/
def State.dwellExpiry (s : State) : State :=
  { s with pairPhase := .pairing, phaseT := s.now, curId := s.baseId, pairDirty := true }

/-- The light id of the current slot (43_pairing R165, 10_state R28). -/
def State.slotId (s : State) : Half := s.baseId + BitVec.ofNat 16 (s.elapsed s.phaseT / tSlot)

/-- The slot update (43_pairing R165). -/
def State.slotUpdate (P : Params) (s : State) : State :=
  if s.slotId = s.curId then s
  else { s with curId := s.slotId, pairSeq := P.pairSeqInit, pairDirty := true }

/-- The advertisement data of a replacement (43_pairing R167 step 1). -/
def State.pairingData (P : Params) (s : State) : List Byte :=
  match s.pairPhase with
  | .discovery => discoveryFrame P s.meshKey s.baseId s.groupId
  | .pairing => pairingFrame P s.meshKey s.curId s.groupId s.pairSeq

/-- Step 5 of a replacement (43_pairing R167, R169). -/
def State.replaced (P : Params) (s : State) : State :=
  { s with
    pairDirty := false
    lastAdvT := s.now
    pairSeq := match s.pairPhase with
      | .discovery => s.pairSeq
      | .pairing => P.pairSeqStep s.pairSeq }

/-- The replacement procedure (43_pairing R167, R168). -/
def State.replacement (P : Params) (s : State) : State :=
  let data := s.pairingData P
  let s1 := s.radioLogged P .stopAdv
  let r1 := s1.radio P (.cfgAdvData data)
  if r1.1 ≠ 0 then r1.2.warn (.radioConfigFailure r1.1)
  else
    let r2 := r1.2.radio P (.startAdv (pairingParams P))
    if r2.1 ≠ 0 then r2.2.warn (.radioStartFailure r2.1)
    else r2.2.replaced P

/-- Step 2 of the pairing tick: the phase's own bookkeeping (43_pairing R162). -/
def State.phaseStep (P : Params) (s : State) : State :=
  match s.pairPhase with
  | .discovery => if s.expired s.phaseT tDiscovery then s.dwellExpiry else s
  | .pairing => s.slotUpdate P

/-- When a replacement happens (43_pairing R166). -/
def State.replacementDue (P : Params) (s : State) : Bool := s.pairDirty || s.expired s.lastAdvT P.tReplace

/-- pairing_tick (43_pairing R162). -/
def State.pairingTick (P : Params) (s : State) : State :=
  if s.expired s.pairT0 tSession then s.timeout P
  else
    let s1 := s.phaseStep P
    if s1.replacementDue P then s1.replacement P else s1

end Sys2Proof.Machine
end

