-- ==== Sys2Proof/Machine/Scheduler.lean ====
section
/-! DEFINITION. TICK and the AdvertisementScheduler (42_scheduler). -/

namespace Sys2Proof.Machine

/-- The Idle step (42_scheduler R142, R144). -/
def State.idleStep (P : Params) (s : State) : State :=
  match s.deq with
  | none => s
  | some (c, s0) =>
    let r1 := s0.radio P (.cfgAdvData (adWrap P c.frame))
    if r1.1 ≠ 0 then r1.2.warn (.radioConfigFailure r1.1)
    else
      let r2 := r1.2.radio P (.startAdv (normalParams P r1.2))
      if r2.1 ≠ 0 then r2.2.warn (.radioStartFailure r2.1)
      else { r2.2 with advState := .advertising, stateT := r2.2.now }

/-- The Advertising step (42_scheduler R145). -/
def State.advertisingStep (P : Params) (s : State) : State :=
  if s.expired s.stateT s.advDur.toNat then
    let s1 := s.radioLogged P .stopAdv
    { s1 with advState := .gap, stateT := s1.now }
  else s

/-- The Gap step, which goes on into the Idle step in the same tick (42_scheduler R146, R147). -/
def State.gapStep (P : Params) (s : State) : State :=
  if s.expired s.stateT s.advGap.toNat then
    let s1 : State := { s with advState := .idle }
    s1.idleStep P
  else s

/-- scheduler_tick (42_scheduler R141). -/
def State.schedulerTick (P : Params) (s : State) : State :=
  match s.advState with
  | .idle => s.idleStep P
  | .advertising => s.advertisingStep P
  | .gap => s.gapStep P

/-- TICK over any parameters (42_scheduler R140). -/
def tick (P : Params) (s : State) : Result :=
  gated opTick s <|
    let s1 := match s.mode with
      | .pairing => s.pairingTick P
      | .normal => s.schedulerTick P
    .next (s1.respond .ok [])

/-- The meaning of TICK (42_scheduler R140). -/
def execTick (s : State) : Result := tick Config.framer s

end Sys2Proof.Machine
end

