-- ==== Sys2Proof/Machine/HostOps.lean ====
section
/-! DEFINITION. The system and compound operations SETUP, ENQRAW and FRESET (44_host_ops). -/

namespace Sys2Proof.Machine

/-- Steps 5 to 7 of SETUP: the configuration registers (44_host_ops R200). -/
def State.configure (key : Bytes4) (cap intMin intMax : Half) (advDur advGap : Word32) (s : State) : State :=
  { s with
    advState := .idle
    meshKey := key
    cap := cap
    advIntMin := intMin
    advIntMax := intMax
    advDur := advDur
    advGap := advGap
    configured := true }

/-- SETUP over any parameters (44_host_ops R200). -/
def setup (P : Params) (key : Bytes4) (cap intMin intMax : Half) (advDur advGap : Word32) (s : State) : Result :=
  match s.mode with
  | .pairing => .next (s.reject .busy .busy)
  | .normal =>
    if qdepthMax P < cap.toNat then .next (s.rejectOperand opSetup)
    else
      let s1 := match s.advState with
        | .advertising => s.radioLogged P .stopAdv
        | .idle => s
        | .gap => s
      .next ((s1.qClear.configure key cap intMin intMax advDur advGap).respond .ok [])

/-- ENQRAW over any parameters: the checks of GENCMD, the frame, then the body of ENQ (44_host_ops R202). -/
def enqraw (P : Params) (ct : BitVec 3) (fwd : Bool) (rsv : BitVec 4) (tid : Half) (payload : List Byte) (s : State) :
    Result :=
  gated opEnqraw s <|
    if !reservedClear rsv then .next (s.rejectOperand opEnqraw)
    else if !frameFits P payload.length then .next (s.rejectOperand opEnqraw)
    else
      let r := s.genFrame P ct tid payload fwd
      enqBody P r.1 r.2

/-- FRESET over any parameters (44_host_ops R203); the FRAME_MAX test is 30_encoding R77's (log 9). -/
def freset (P : Params) (lid : Half) (s : State) : Result :=
  gated opFreset s <|
    if !frameFits P fresetLen then .next (s.rejectOperand opFreset)
    else
      let r := s.genFrame P ctControl lid (List.replicate fresetLen 0x00) true
      enqBody P r.1 r.2

/-- The meaning of SETUP (44_host_ops R200). -/
def execSetup (key : Bytes4) (cap intMin intMax : Half) (advDur advGap : Word32) (s : State) : Result :=
  setup Config.framer key cap intMin intMax advDur advGap s

/-- The meaning of ENQRAW (44_host_ops R202). -/
def execEnqraw (ct : BitVec 3) (fwd : Bool) (rsv : BitVec 4) (tid : Half) (payload : List Byte) (s : State) : Result :=
  enqraw Config.framer ct fwd rsv tid payload s

/-- The meaning of FRESET (44_host_ops R203). -/
def execFreset (lid : Half) (s : State) : Result := freset Config.framer lid s

end Sys2Proof.Machine
end

