-- ==== Sys2Proof/Machine/Dispatch.lean ====
section
/-! DEFINITION. The meaning of each operation, one arm per constructor of `Instr`. -/

namespace Sys2Proof.Machine

def exec (i : Instr) (s : State) : Host.Outcome State Fault Refusal :=
  match i with
  | .setup key cap intMin intMax advDur advGap => Sys2Proof.Machine.execSetup key cap intMin intMax advDur advGap s
  | .tick => Sys2Proof.Machine.execTick s
  | .gencmd ct fwd rsv tid payload => Sys2Proof.Machine.execGencmd ct fwd rsv tid payload s
  | .sctrl tid light => Sys2Proof.Machine.execSctrl tid light s
  | .enq frame => Sys2Proof.Machine.execEnq frame s
  | .enqraw ct fwd rsv tid payload => Sys2Proof.Machine.execEnqraw ct fwd rsv tid payload s
  | .clr => Sys2Proof.Machine.execClr s
  | .qsize => Sys2Proof.Machine.execQsize s
  | .qempty => Sys2Proof.Machine.execQempty s
  | .pair lid gid => Sys2Proof.Machine.execPair lid gid s
  | .freset lid => Sys2Proof.Machine.execFreset lid s

end Sys2Proof.Machine
end

