-- ==== Sys2Proof/Machine/Step.lean ====
section
/-! DEFINITION. One step: the next input the host presents, taken whole (20_memory R51, R53). -/

namespace Sys2Proof.Machine

/-- One operation, delimited by the port, in the state in which it starts: its meaning, or the answer to a reserved
opcode or a wrong length (44_host_ops R204, R206). -/
def perform (d : Decoded) (s : State) : Host.Outcome State Fault Refusal :=
  match d with
  | .instr i => exec i s
  | .illegalOp op => .next (s.rejectIllegal op)
  | .badLength op => .next (s.rejectOperand op)

/-- One step of the machine. With nothing presented the state is kept (60_exceptions R248). -/
def step (s : State) : Host.Outcome State Fault Refusal :=
  match s.pending with
  | [] => .next s
  | .reset :: rest => .next (s.accept rest s.now).takeReset
  | .op opcode operands t :: rest => perform (decodeOp opcode operands) (s.accept rest t)

/-- The instruction whose bits are w, presented on the CMD port before anything else, at the present NOW. -/
def State.withFetchWord (s : State) (nbits w : Nat) : State :=
  { s with pending := .op (patternOpcode nbits w) (patternOperands nbits w) s.now :: s.pending }

end Sys2Proof.Machine
end

