-- ==== Sys2Proof/Machine/LightPayload.lean ====
section
/-! DEFINITION. The LightPayloadMapper, outside the framer (45_light_payload_contract): the producer's function whose
output is SCTRL's light operand. No operation calls it. -/

namespace Sys2Proof.Machine

/-- A channel within the contract's range [0,1] (45 R220). -/
def unitRange (x : Rat) : Bool := decide (0 ≤ x) && decide (x ≤ 1)

/-- Every channel within its range; mireds has none, it is clamped (45 R220). -/
def lightInContract (l : LightState) : Bool :=
  unitRange l.brightness && unitRange l.red && unitRange l.green && unitRange l.blue && unitRange l.warm
    && unitRange l.cold

/-- scale(x) = floor(x × 255) as a byte (45 R225). -/
def lightScale (x : Rat) : Byte := BitVec.ofNat 8 (x * 255).floor.toNat

/-- B0, the brightness byte of a light that is on (45 R223). -/
def brightnessByte (b : Rat) : Byte := 0x80 ||| BitVec.ofNat 8 (min (b * 127) 127).floor.toNat

/-- The colour-temperature position between 153 and 500 mireds, clamped to [0,1] (45 R225, R226). -/
def temperaturePosition (mireds : Rat) : Rat := max 0 (min 1 ((mireds - 153) / (500 - 153)))

/-- B1 to B3: blue, red, green (45 R225). -/
def colourBytes (l : LightState) : List Byte :=
  if l.rgb then [lightScale l.blue, lightScale l.red, lightScale l.green] else [0x00, 0x00, 0x00]

/-- B4 and B5: warm and cold, or the interpolated pair (45 R225). -/
def whiteBytes (l : LightState) : List Byte :=
  if l.coldWarmWhite then [lightScale l.warm, lightScale l.cold]
  else if l.colorTemperature then
    [lightScale (1 - temperaturePosition l.mireds), lightScale (temperaturePosition l.mireds)]
  else [0x00, 0x00]

/-- The light payload of a light state (45 R221 to R226); outside the contract it is a free value (log 16). -/
def lightPayload (l : LightState) : List Byte :=
  if !l.on then [0x00]
  else if !lightInContract l then Config.lightOutside l
  else if l.white then [brightnessByte l.brightness]
  else brightnessByte l.brightness :: (colourBytes l ++ whiteBytes l)

end Sys2Proof.Machine
end

