-- ==== Sys2Proof/Safety.lean ====
section
/-! DEFINITION. The terms claims use: the invariant of 10_state R35, what an event may hold, runs of timed operations,
and the reading of a logged failure. -/

namespace Sys2Proof.Machine

/-- The invariants that hold at every operation boundary (10_state R35), with what the rules say besides of the queue's
entries (R19) and of the session's first phase (43_pairing R160, R164). -/
structure State.Inv (P : Params) (s : State) : Prop where
  /-- R35 item 1. -/
  seq_range : 1 ≤ s.seq.toNat ∧ s.seq.toNat ≤ 254
  /-- R35 item 2. -/
  queue_within_cap : s.q.length ≤ s.cap.toNat
  /-- R35 item 2. -/
  cap_within_depth : s.cap.toNat ≤ qdepthMax P
  /-- R35 item 3. -/
  pairing_idle : s.mode = .pairing → s.advState = .idle
  /-- R35 item 5. -/
  unconfigured : s.configured = false → s.q = [] ∧ s.mode = .normal ∧ s.advState = .idle ∧ s.seq = 1
  /-- R19: a frame has at most FRAME_MAX bytes, and retry stays 0. -/
  entries : ∀ c ∈ s.q, c.frame.length ≤ frameMax ∧ c.retry = 0
  /-- R160, R164: in Discovery the broadcast id is the base id and PAIR_SEQ holds PAIR_SEQ_START. -/
  discovery : s.mode = .pairing → s.pairPhase = .discovery → s.curId = s.baseId ∧ s.pairSeq = s.pairSeqStart

/-- The instance of RF_FRAME the spec offers: preamble, then body (RF_FRAME_CONCAT, 40_codec R98). -/
def IsConcat (P : Params) : Prop :=
  (∀ k, P.rfLen k = 6 + k) ∧ ∀ pre body k, P.rfByte pre body k = (pre.toList ++ body).getD k 0

/-- The framers agree on the constants a frame is made with: HDR_KS, PREAMBLE, HDR2_KEY_INDEX (00_scope R5). -/
def SameCipherAndAddress (P Q : Params) : Prop :=
  P.hdrKs = Q.hdrKs ∧ P.preamble = Q.preamble ∧ P.hdr2KeyIndex = Q.hdr2KeyIndex

/-- The two characters spell the byte in hexadecimal, each in either case, high digit first (43_pairing R182). -/
def HexSpelling (b : Byte) (w : List Byte) : Prop :=
  ∃ u v : Bool, w = [hexChar u (b.extractLsb' 4 4), hexChar v (b.extractLsb' 0 4)]

/-- The packet contains the eight characters that spell the key, two for each byte, in any order of the bytes and with
anything before, between and after them (43_pairing R182). -/
def SpellsKey (key : Bytes4) (out : List Byte) : Prop :=
  ∃ (a b c d : Byte) (wa wb wc wd g0 g1 g2 g3 g4 : List Byte),
    [a, b, c, d].Perm [key.b0, key.b1, key.b2, key.b3] ∧
    HexSpelling a wa ∧ HexSpelling b wb ∧ HexSpelling c wc ∧ HexSpelling d wd ∧
    out = g0 ++ wa ++ g1 ++ wb ++ g2 ++ wc ++ g3 ++ wd ++ g4

/-- The state with the registers of the scheduler and of the session taken from elsewhere: MODE, ADV_STATE, STATE_T and
the pairing registers (10_state R20 to R32). -/
def State.withSession (s : State) (r : Registers) : State :=
  { s with
    mode := r.mode, advState := r.advState, stateT := r.stateT, pairPhase := r.pairPhase, pairT0 := r.pairT0
    phaseT := r.phaseT, baseId := r.baseId, groupId := r.groupId, curId := r.curId
    pairSeqStart := r.pairSeqStart, pairSeq := r.pairSeq, lastAdvT := r.lastAdvT, pairDirty := r.pairDirty }

/-- An event the radio can take: at most 31 bytes of advertisement data (20_memory R50, 60_exceptions R246). -/
def Event.withinRadioLimit : Event → Bool
  | .radio (.cfgAdvData raw) _ => decide (raw.length ≤ advLimit)
  | .radio (.startAdv _) _ => true
  | .radio .stopAdv _ => true
  | .radio .stopScan _ => true
  | .radio (.startScan _) _ => true
  | .warn _ => true
  | .rsp _ => true

/-- An event on the RSP port. -/
def Event.isResponse : Event → Bool
  | .rsp _ => true
  | .radio .. => false
  | .warn _ => false

/-- An event on the RADIO port. -/
def Event.isRadio : Event → Bool
  | .radio .. => true
  | .rsp _ => false
  | .warn _ => false

/-- An event that is a START_SCAN call. -/
def Event.isStartScan : Event → Bool
  | .radio (.startScan _) _ => true
  | .radio (.cfgAdvData _) _ => false
  | .radio (.startAdv _) _ => false
  | .radio .stopAdv _ => false
  | .radio .stopScan _ => false
  | .warn _ => false
  | .rsp _ => false

/-- The events of a call whose failure is logged only: the call, then the warning if it failed (60_exceptions R237). -/
def loggedCall (call : RadioCall) (rc : Nat) : List Event :=
  .radio call rc :: if rc = 0 then [] else [.warn (.radioOtherFailure call.prim rc)]

/-- The codes with which the radio refuses a replacement that broadcasts `data`, at START_ADV or else at CFG_ADV_DATA
(43_pairing R168). -/
def refusalCodes (rc0 rc : Nat) (atStart : Bool) : List Nat := if atStart then [rc0, 0, rc] else [rc0, rc]

/-- The events of that replacement, with PAIRING_PARAMS spelled out (43_pairing R167, R168, R186). -/
def refusalEvents (P : Params) (data : List Byte) (rc0 rc : Nat) (atStart : Bool) : List Event :=
  loggedCall .stopAdv rc0 ++
    if atStart then
      [.radio (.cfgAdvData data) 0,
       .radio (.startAdv ⟨P.pairIntMin, P.pairIntMax, P.advTypeNonconn, P.advAddrType, P.advChannelMap,
         P.advFilterPolicy⟩) rc, .warn (.radioStartFailure rc)]
    else [.radio (.cfgAdvData data) rc, .warn (.radioConfigFailure rc)]

/-- What an operation turned away leaves on the trace: a warning, then a response without data (60_exceptions R230). -/
def turnedAway (w : Warning) (status : Status) : List Event := [.warn w, .rsp ⟨status, []⟩]

/-- A sequence of operations, each at its own NOW (`OP @t`, 30_encoding R82), stopping at the first that answers no
next state. -/
def runOps : List (Word32 × Instr) → State → Result
  | [], s => .next s
  | (t, i) :: rest, s =>
    match exec i { s with now := t } with
    | .next s' => runOps rest s'
    | .fault f => .fault f
    | .refused r => .refused r

end Sys2Proof.Machine
end

