-- ==== Sys2Proof/Certificates/Slice0/Obligations.lean ====
section
/-! DEFINITION. The statements for the provers. `Config.framer` is the framer's parameters, of which nothing is known
but what their form says (log 2); a statement "for all P" holds for every choice of the OPEN parameters. -/

open Sys2Proof Sys2Proof.Machine

/-! ### The command port (30_encoding R68 to R81) -/

/-- Every operation that a format can spell is read back from its encoding, with every operand at every value
(30_encoding R69 to R75). -/
def Obligations.DecodeInvertsEncode : Prop :=
  ∀ i : Instr, i.WellFormed → decode (encode i) = some i

/-- A byte sequence that decodes is the encoding of what it decodes to, which a format can spell (30_encoding R69 to
R75, R81). -/
def Obligations.EncodeInvertsDecode : Prop :=
  ∀ (bytes : List Byte) (i : Instr), decode bytes = some i → encode i = bytes ∧ i.WellFormed

/-- Six of the spec's own CMD byte sequences (95_test_vectors V313, V315, V319, V320) decode to the operations they
stand for. -/
def Obligations.SampleSequencesDecode : Prop :=
  decode [0x02] = some .tick ∧
  decode [0x31, 0x2A, 0x00] = some (.freset 42) ∧
  decode [0x30, 0x64, 0x00, 0x01, 0x00] = some (.pair 100 1) ∧
  decode [0x10, 0x0D, 0x2A, 0x01, 0x02, 0xAA, 0xBB] = some (.gencmd 5 true 0 0x012A [0xAA, 0xBB]) ∧
  decode [0x11, 0x2A, 0x00, 0x06, 0xFF, 0x00, 0xFF, 0x00, 0x00, 0x00] =
    some (.sctrl 42 [0xFF, 0x00, 0xFF, 0x00, 0x00, 0x00]) ∧
  decode [0x01, 0xA1, 0xB2, 0xC3, 0xD4, 0x64, 0x00, 0x20, 0x00, 0x40, 0x00, 0x32, 0x00, 0x00, 0x00, 0x0A, 0x00,
    0x00, 0x00] = some (.setup ⟨0xA1, 0xB2, 0xC3, 0xD4⟩ 100 32 64 50 10)

/-- A sequence whose byte 0 is reserved is answered ILLEGAL_OP with its warning, whatever CONFIGURED is; nothing else
changes but that the input is taken and NOW sampled (30_encoding R79, 44_host_ops R204). -/
def Obligations.ReservedOpcodeAnswersIllegalOp : Prop :=
  ∀ (op : Byte) (operands : List Byte) (t : Word32) (rest : List HostInput) (s : State),
    (op.toNat = 0x00 ∨ (0x03 ≤ op.toNat ∧ op.toNat ≤ 0x0F) ∨ (0x12 ≤ op.toNat ∧ op.toNat ≤ 0x1F) ∨
      (0x25 ≤ op.toNat ∧ op.toNat ≤ 0x2F) ∨ 0x32 ≤ op.toNat) →
    s.pending = .op op operands t :: rest →
    step s = .next { s with
      pending := rest, now := t, trace := s.trace ++ [.warn (.illegalOp op), .rsp ⟨.illegalOp, []⟩] }

/-- The length decides: a valid opcode whose sequence is shorter or longer than its format and length byte require is
answered BAD_OPERAND with its warning, before any other test, and nothing else changes but that the input is taken and
NOW sampled; a valid opcode with a sequence of that length is an operation of that opcode, one a format can spell
(30_encoding R81, 44_host_ops R206). -/
def Obligations.LengthDecidesTheOperation : Prop :=
  ∀ (op : Byte) (operands : List Byte), op ∈ opcodes →
    ((op :: operands).length ≠ opLength op (fun k => (op :: operands).getD k 0) →
      ∀ (t : Word32) (rest : List HostInput) (s : State), s.pending = .op op operands t :: rest →
        step s = .next { s with
          pending := rest, now := t, trace := s.trace ++ [.warn (.badOperand op), .rsp ⟨.badOperand, []⟩] }) ∧
    ((op :: operands).length = opLength op (fun k => (op :: operands).getD k 0) →
      ∃ i : Instr, decode (op :: operands) = some i ∧ i.opcode = op ∧ i.WellFormed)

/-- When the bytes presented decode to a well-formed operation, the step is that operation's meaning in the state with
the input taken off the port and NOW sampled (20_memory R51, R54); with nothing presented the state is kept
(60_exceptions R248). -/
def Obligations.StepRunsTheDecodedOperation : Prop :=
  (∀ (op : Byte) (operands : List Byte) (t : Word32) (rest : List HostInput) (i : Instr) (s : State),
    s.pending = .op op operands t :: rest → decode (op :: operands) = some i → i.WellFormed →
    step s = exec i { s with pending := rest, now := t }) ∧
  ∀ s : State, s.pending = [] → step s = .next s

/-- RESET, at any operation boundary and in any state: the registers the spec gives a reset value have it, there is no
radio call, no warning, no response (70_reset R260). -/
def Obligations.ResetInputRestoresTheResetTable : Prop :=
  ∀ (rest : List HostInput) (s : State), s.pending = .reset :: rest →
    ∃ t : State, step s = .next t ∧ t.cap = 100 ∧ t.configured = false ∧ t.seq = 1 ∧ t.q = [] ∧ t.mode = .normal ∧
      t.advState = .idle ∧ t.trace = s.trace ∧ t.pending = rest

/-- The state after reset holds every value of the reset table that the spec states (10_state R36). The registers it
leaves unspecified are the model's choice (log 1) and are not spoken of here. -/
def Obligations.ResetStateHoldsTheResetTable : Prop :=
  State.reset.cap = 100 ∧ State.reset.configured = false ∧ State.reset.seq = 1 ∧ State.reset.q = [] ∧
    State.reset.mode = .normal ∧ State.reset.advState = .idle

/-! ### The gate and time -/

/-- Until SETUP has run, every other operation is answered NOT_CONFIGURED with its warning and changes nothing
(44_host_ops R205). That the warning stands before the response is the model's choice (log 8): R205 writes the
response first, on another port. -/
def Obligations.UnconfiguredFramerTurnsOperationsAway : Prop :=
  ∀ (i : Instr) (s : State), i.opcode ≠ 0x01 → s.configured = false →
    exec i s = .next { s with trace := s.trace ++ turnedAway (.notConfigured i.opcode) .notConfigured }

/-- Elapsed time is (NOW - t) mod 2^32, across the wrap of NOW too (20_memory R55). -/
def Obligations.ElapsedTimeIsModular : Prop :=
  ∀ (s : State) (t : Word32), s.elapsed t = (s.now.toNat + 2 ^ 32 - t.toNat) % 2 ^ 32

/-- A radio call is answered with the next code the environment gives, or, when none is given, with a free value of
its own; the call and its code go on the trace and nothing else changes (20_memory R50, log 6). -/
def Obligations.RadioCallDrawsOneCode : Prop :=
  ∀ (P : Params) (call : RadioCall) (s : State),
    (∀ rc rest, s.radioIn = rc :: rest →
      s.radio P call = (rc, { s with radioIn := rest, trace := s.trace ++ [.radio call rc] })) ∧
    (s.radioIn = [] →
      s.radio P call = (P.radioCode s.radioFree,
        { s with radioFree := s.radioFree + 1,
                 trace := s.trace ++ [.radio call (P.radioCode s.radioFree)] }))

/-! ### SETUP (44_host_ops R200) -/

/-- SETUP in Normal mode with a capacity the FIFO can hold loads the whole configuration, empties the queue and forces
Idle; SEQ is not written. It makes a radio call only where an advertisement runs: STOP_ADV, whose failure is logged
(44_host_ops R200). -/
def Obligations.SetupLoadsTheConfiguration : Prop :=
  ∀ (key : Bytes4) (cap intMin intMax : Half) (advDur advGap : Word32) (s : State),
    s.mode = .normal → cap.toNat ≤ qdepthMax Config.framer →
    (s.advState ≠ .advertising →
      exec (.setup key cap intMin intMax advDur advGap) s = .next { s with
        meshKey := key, cap := cap, advIntMin := intMin, advIntMax := intMax, advDur := advDur, advGap := advGap,
        configured := true, q := [], advState := .idle, trace := s.trace ++ [.rsp ⟨.ok, []⟩] }) ∧
    (s.advState = .advertising → ∀ rc codes, s.radioIn = rc :: codes →
      exec (.setup key cap intMin intMax advDur advGap) s = .next { s with
        meshKey := key, cap := cap, advIntMin := intMin, advIntMax := intMax, advDur := advDur, advGap := advGap,
        configured := true, q := [], advState := .idle, radioIn := codes,
        trace := s.trace ++ loggedCall .stopAdv rc ++ [.rsp ⟨.ok, []⟩] })

/-- SETUP is turned away BUSY during a session, and BAD_OPERAND for a capacity above QDEPTH_MAX; both leave the state
as it is but for the trace (44_host_ops R200). -/
def Obligations.SetupIsTurnedAway : Prop :=
  ∀ (P : Params) (key : Bytes4) (cap intMin intMax : Half) (advDur advGap : Word32) (s : State),
    (s.mode = .pairing →
      setup P key cap intMin intMax advDur advGap s = .next { s with trace := s.trace ++ turnedAway .busy .busy }) ∧
    (s.mode = .normal → qdepthMax P < cap.toNat →
      setup P key cap intMin intMax advDur advGap s =
        .next { s with trace := s.trace ++ turnedAway (.badOperand 0x01) .badOperand })

/-! ### PacketCodec (40_codec) -/

/-- SEQNEXT hands out SEQ and advances it, never to 255 and with 1 after 254 (40_codec R90). -/
def Obligations.SeqNextHandsOutAndAdvances : Prop :=
  ∀ s : State, s.seqNext = (s.seq, { s with
    seq := if 255 ≤ (s.seq.toNat + 1) % 256 then 1 else BitVec.ofNat 8 ((s.seq.toNat + 1) % 256) })

/-- From SEQ = 1 the (k+1)-th call of SEQNEXT returns (k mod 254) + 1, which the spec derives by induction in 40_codec
R91 from R90. -/
def Obligations.SequenceCyclesThrough254Values : Prop :=
  ∀ (s : State) (k : Nat), s.seq = 1 →
    (((fun u : State => u.seqNext.2)^[k] s).seqNext.1).toNat = k % 254 + 1

/-- The fields of header byte 0: target id bits 11:8, the command type, the forward flag (30_encoding R61). -/
def Obligations.HeaderByteZeroFields : Prop :=
  ∀ (ct : BitVec 3) (tid : Half) (fwd : Bool),
    (hdr0 ct tid fwd).extractLsb' 0 4 = tid.extractLsb' 8 4 ∧ (hdr0 ct tid fwd).extractLsb' 4 3 = ct ∧
      (hdr0 ct tid fwd).getLsbD 7 = fwd

/-- The checksum is the sum mod 256 of all bytes but the one at index 3, whose value does not count (40_codec R93). -/
def Obligations.ChecksumSumsAllButByteThree : Prop :=
  ∀ (body : List Byte) (v : Byte),
    (checksum body).toNat = ((body.eraseIdx 3).map BitVec.toNat).sum % 256 ∧ checksum (body.set 3 v) = checksum body

/-- The cipher byte by byte: the bytes at index 0 to 3 with the header keystream, those from index 4 on with the mesh
key, both cycling by index & 3, and byte k of a key is its k-th; the length is kept (40_codec R94). -/
def Obligations.CipherXorsEachByteWithItsKeystream : Prop :=
  ∀ (ks key : Bytes4) (body : List Byte),
    (xorCrypt ks key body).length = body.length ∧
    (keyByte key 0 = key.b0 ∧ keyByte key 1 = key.b1 ∧ keyByte key 2 = key.b2 ∧ keyByte key 3 = key.b3) ∧
    ∀ i b, body[i]? = some b →
      (i ≤ 3 → (xorCrypt ks key body)[i]? = some (b ^^^ keyByte ks (i &&& 3))) ∧
      (3 < i → (xorCrypt ks key body)[i]? = some (b ^^^ keyByte key (i &&& 3)))

/-- The cipher undoes itself, for every key and every sequence, which the spec derives in 40_codec R96 from R94. -/
def Obligations.CipherIsSelfInverse : Prop :=
  ∀ (ks key : Bytes4) (body : List Byte), xorCrypt ks key (xorCrypt ks key body) = body

/-- What decrypting a generated body shows: the header fields, the checksum, the sequence number in 1..254, the key
byte, the payload: the five properties the spec derives in 40_codec R100 from R92 to R97. -/
def Obligations.GeneratedBodyDecrypts : Prop :=
  ∀ (P : Params) (ct : BitVec 3) (tid : Half) (payload : List Byte) (fwd : Bool) (s : State),
    1 ≤ s.seq.toNat → s.seq.toNat ≤ 254 →
    ∃ h c : Byte,
      xorCrypt P.hdrKs s.meshKey (s.genBody P ct tid payload fwd).1 =
        [h, s.seq, keyByte s.meshKey P.hdr2KeyIndex.val, c] ++ payload ∧
      h.extractLsb' 0 4 = tid.extractLsb' 8 4 ∧ h.extractLsb' 4 3 = ct ∧ h.getLsbD 7 = fwd ∧
      c = checksum (xorCrypt P.hdrKs s.meshKey (s.genBody P ct tid payload fwd).1) ∧
      (s.genBody P ct tid payload fwd).2 = { s with seq := if s.seq.toNat = 254 then 1 else s.seq + 1 } ∧
      ∀ j b, payload[j]? = some b →
        (s.genBody P ct tid payload fwd).1[4 + j]? = some (b ^^^ keyByte s.meshKey (j &&& 3))

/-- The inner structure is 12 bytes: the tag 2 | ((L+1) << 4), the target id's low byte, the light payload, zeros
(40_codec R101). -/
def Obligations.InnerStructureLayout : Prop :=
  ∀ (tid : Half) (light : List Byte), light.length ≤ 8 →
    (innerStructure tid light).length = 12 ∧
    (∃ tag : Byte, (innerStructure tid light)[0]? = some tag ∧ tag.toNat = 2 + 16 * (light.length + 1)) ∧
    (innerStructure tid light)[1]? = some (BitVec.ofNat 8 (tid.toNat % 256)) ∧
    (∀ k b, light[k]? = some b → (innerStructure tid light)[2 + k]? = some b) ∧
    ∀ k, 2 + light.length ≤ k → k < 12 → (innerStructure tid light)[k]? = some 0x00

/-- The advertisement data of a frame: two AD structures, at most the first 24 bytes of the frame, at most 31 bytes in
all (30_encoding R66). The AD lengths and type codes are not in the spec's source: it takes them, in R66's own words,
from general knowledge (log 19). -/
def Obligations.AdvertisementDataLayout : Prop :=
  ∀ (P : Params) (frame : List Byte),
    (adWrap P frame).length = 7 + min frame.length 24 ∧ (adWrap P frame).length ≤ 31 ∧
    (adWrap P frame).take 3 = [0x02, 0x01, P.advFlags] ∧
    (adWrap P frame)[3]? = some (BitVec.ofNat 8 (min frame.length 24 + 3)) ∧
    ((adWrap P frame).drop 4).take 3 =
      [0xFF, BitVec.ofNat 8 (P.mfrId.toNat % 256), BitVec.ofNat 8 (P.mfrId.toNat / 256)] ∧
    (adWrap P frame).drop 7 = frame.take 24

/-- GENCMD with clear reserved bits answers the frame of the encrypted body and advances SEQ, and nothing else, when
the frame fits FRAME_MAX; else it is BAD_OPERAND with SEQ as it was. Which of the two depends on the payload's length
and on the OPEN parameter RF_LEN alone. With a reserved bit set it is BAD_OPERAND and SEQ is not advanced; before
SETUP it is NOT_CONFIGURED (40_codec R99). The WARN event of the NOT_CONFIGURED clause is log 18 (DEDUCED), its place
before the response the model's choice (log 8). -/
def Obligations.GencmdAnswersTheFrame : Prop :=
  ∀ (ct : BitVec 3) (fwd : Bool) (rsv : BitVec 4) (tid : Half) (payload : List Byte) (s : State),
    (s.configured = true → rsv = 0 → exec (.gencmd ct fwd rsv tid payload) s = .next (
      if Config.framer.rfLen (4 + payload.length) ≤ 255 then
        let frame := rfFrame Config.framer (s.genBody Config.framer ct tid payload fwd).1
        { s with seq := seqSucc s.seq,
                 trace := s.trace ++ [.rsp ⟨.ok, BitVec.ofNat 8 frame.length :: frame⟩] }
      else { s with trace := s.trace ++ turnedAway (.badOperand 0x10) .badOperand })) ∧
    (s.configured = true → rsv ≠ 0 → exec (.gencmd ct fwd rsv tid payload) s =
      .next { s with trace := s.trace ++ turnedAway (.badOperand 0x10) .badOperand }) ∧
    (s.configured = false → exec (.gencmd ct fwd rsv tid payload) s =
      .next { s with trace := s.trace ++ turnedAway (.notConfigured 0x10) .notConfigured })

/-- Under the spec's default instance the frame operations complete with the frame preamble ++ body: GENCMD for
payloads of at most 245 bytes and no longer ones, SCTRL for every legal light payload, and, with room in the queue,
ENQRAW for payloads of at most 245 bytes and FRESET (40_codec R98, R99, R102; 44_host_ops R202, R203). -/
def Obligations.FrameOperationsCompleteUnderConcatenation : Prop :=
  ∀ (P : Params) (ct : BitVec 3) (fwd : Bool) (tid : Half) (payload light : List Byte) (s : State),
    IsConcat P → s.configured = true →
    (payload.length ≤ 245 →
      gencmd P ct fwd 0 tid payload s = .next { s with
        seq := seqSucc s.seq,
        trace := s.trace ++ [.rsp ⟨.ok, BitVec.ofNat 8 (10 + payload.length) ::
          (P.preamble.toList ++ (s.genBody P ct tid payload fwd).1)⟩] }) ∧
    (245 < payload.length →
      gencmd P ct fwd 0 tid payload s =
        .next { s with trace := s.trace ++ turnedAway (.badOperand 0x10) .badOperand }) ∧
    (light.length ≤ 8 →
      sctrl P tid light s = .next { s with
        seq := seqSucc s.seq,
        trace := s.trace ++ [.rsp ⟨.ok, 22 ::
          (P.preamble.toList ++ (s.genBody P 5 tid (innerStructure tid light) true).1)⟩] }) ∧
    (s.cap.toNat ≤ qdepthMax P → s.q.length < s.cap.toNat →
      (payload.length ≤ 245 →
        enqraw P ct fwd 0 tid payload s = .next { s with
          seq := seqSucc s.seq
          q := s.q ++ [⟨P.preamble.toList ++ (s.genBody P ct tid payload fwd).1, s.now, 0⟩]
          trace := s.trace ++ [.rsp ⟨.ok, []⟩] }) ∧
      freset P tid s = .next { s with
        seq := seqSucc s.seq
        q := s.q ++ [⟨P.preamble.toList ++ (s.genBody P 5 tid [0, 0, 0, 0, 0, 0, 0] true).1, s.now, 0⟩]
        trace := s.trace ++ [.rsp ⟨.ok, []⟩] })

/-- SCTRL with at most 8 light bytes answers the frame of the inner structure under command type 5 with the forward
flag, and advances SEQ, when a 16-byte body's frame fits FRAME_MAX, which depends on RF_LEN alone; with more than 8 it
generates nothing: OVERSIZED with its warning, SEQ unchanged; before SETUP it is NOT_CONFIGURED (40_codec R102). The
WARN event of the NOT_CONFIGURED clause is log 18 (DEDUCED), its place before the response the model's choice (log 8).
-/
def Obligations.SctrlAnswersTheFrame : Prop :=
  ∀ (tid : Half) (light : List Byte) (s : State),
    (s.configured = true → light.length ≤ 8 → exec (.sctrl tid light) s = .next (
      if Config.framer.rfLen 16 ≤ 255 then
        let frame := rfFrame Config.framer (s.genBody Config.framer 5 tid (innerStructure tid light) true).1
        { s with seq := seqSucc s.seq,
                 trace := s.trace ++ [.rsp ⟨.ok, BitVec.ofNat 8 frame.length :: frame⟩] }
      else { s with trace := s.trace ++ turnedAway (.badOperand 0x11) .badOperand })) ∧
    (s.configured = true → 8 < light.length → exec (.sctrl tid light) s =
      .next { s with trace := s.trace ++ turnedAway (.oversizedPayload light.length) .oversized }) ∧
    (s.configured = false → exec (.sctrl tid light) s =
      .next { s with trace := s.trace ++ turnedAway (.notConfigured 0x11) .notConfigured })

/-! ### CommandQueue (41_queue) -/

/-- ENQ with room appends the frame with NOW and retry 0 as the newest entry and answers OK; the entries before it
stay. On a full queue it drops the new frame: QUEUE_FULL with QLEN and CAP in its warning, the queue untouched. Before
SETUP it is NOT_CONFIGURED (41_queue R120). The premise on CAP and QDEPTH_MAX is part of `State.Inv`. The WARN event
of the NOT_CONFIGURED clause is log 18 (DEDUCED), its place before the response the model's choice (log 8). -/
def Obligations.EnqAppendsOrDropsTheFrame : Prop :=
  ∀ (frame : List Byte) (s : State),
    (s.configured = true → s.q.length < s.cap.toNat → s.cap.toNat ≤ qdepthMax Config.framer →
      exec (.enq frame) s = .next { s with
        q := s.q ++ [⟨frame, s.now, 0⟩], trace := s.trace ++ [.rsp ⟨.ok, []⟩] }) ∧
    (s.configured = true → s.cap.toNat ≤ s.q.length →
      exec (.enq frame) s =
        .next { s with trace := s.trace ++ turnedAway (.queueFull s.q.length s.cap.toNat) .queueFull }) ∧
    (s.configured = false → exec (.enq frame) s =
      .next { s with trace := s.trace ++ turnedAway (.notConfigured 0x20) .notConfigured })

/-- From an empty queue and with only ENQs, each at any NOW, the first CAP are accepted and every later one is
rejected, and the queue holds the first CAP frames in order: what the spec derives by induction in 41_queue R127 from
R120. The premise on CAP is part of `State.Inv`. -/
def Obligations.CapacityIsExact : Prop :=
  ∀ (ops : List (Word32 × List Byte)) (s : State), s.configured = true → s.q = [] →
    s.cap.toNat ≤ qdepthMax Config.framer →
    ∃ u : State, runOps (ops.map fun o => (o.1, .enq o.2)) s = .next u ∧
      u.q = (ops.take s.cap.toNat).map (fun o => ⟨o.2, o.1, 0⟩) ∧
      u.trace = s.trace ++ (List.range ops.length).flatMap (fun k =>
        if k < s.cap.toNat then [.rsp ⟨.ok, []⟩]
        else turnedAway (.queueFull s.cap.toNat s.cap.toNat) .queueFull)

/-- CLR empties the queue and touches nothing else, ADV_STATE and SEQ included; before SETUP it is NOT_CONFIGURED
(41_queue R122). The WARN event of the NOT_CONFIGURED clause is log 18 (DEDUCED), its place before the response the
model's choice (log 8). -/
def Obligations.ClrEmptiesTheQueue : Prop :=
  ∀ s : State,
    (s.configured = true → exec .clr s = .next { s with q := [], trace := s.trace ++ [.rsp ⟨.ok, []⟩] }) ∧
    (s.configured = false →
      exec .clr s = .next { s with trace := s.trace ++ turnedAway (.notConfigured 0x22) .notConfigured })

/-- QSIZE answers QLEN, low byte first, as long as QLEN fits its 16 bits, which `State.Inv` implies; QEMPTY answers 1
for an empty queue and 0 for any other; both change nothing but the trace; before SETUP both are NOT_CONFIGURED
(41_queue R123, R124). The WARN event of the NOT_CONFIGURED clause is log 18 (DEDUCED), its place before the response
the model's choice (log 8). -/
def Obligations.QsizeAndQemptyReportTheLength : Prop :=
  ∀ s : State,
    (s.configured = true → s.q.length ≤ s.cap.toNat →
      ∃ lo hi : Byte, exec .qsize s = .next { s with trace := s.trace ++ [.rsp ⟨.ok, [lo, hi]⟩] } ∧
        lo.toNat + 256 * hi.toNat = s.q.length) ∧
    (s.configured = true → s.q = [] →
      exec .qempty s = .next { s with trace := s.trace ++ [.rsp ⟨.ok, [0x01]⟩] }) ∧
    (s.configured = true → s.q ≠ [] →
      exec .qempty s = .next { s with trace := s.trace ++ [.rsp ⟨.ok, [0x00]⟩] }) ∧
    (s.configured = false →
      exec .qsize s = .next { s with trace := s.trace ++ turnedAway (.notConfigured 0x23) .notConfigured } ∧
      exec .qempty s = .next { s with trace := s.trace ++ turnedAway (.notConfigured 0x24) .notConfigured })

/-! ### ENQRAW and FRESET (44_host_ops R202, R203) -/

/-- ENQRAW makes the frame GENCMD would answer, so that SEQ advances, and performs the body of ENQ with it: appended
with room in the queue, dropped with QUEUE_FULL on a full one, where the sequence number stays consumed. A frame that
exceeds FRAME_MAX, which depends on the payload's length and RF_LEN alone, or a reserved bit set is BAD_OPERAND with
SEQ as it was; before SETUP it is NOT_CONFIGURED (44_host_ops R202). The premise on CAP and QDEPTH_MAX is part of
`State.Inv`. The WARN event of the NOT_CONFIGURED clause is log 18 (DEDUCED), its place before the response the
model's choice (log 8). -/
def Obligations.EnqrawEnqueuesTheFrame : Prop :=
  ∀ (ct : BitVec 3) (fwd : Bool) (rsv : BitVec 4) (tid : Half) (payload : List Byte) (s : State),
    (s.configured = true → rsv = 0 → s.cap.toNat ≤ qdepthMax Config.framer → s.q.length < s.cap.toNat →
      exec (.enqraw ct fwd rsv tid payload) s = .next (
        if Config.framer.rfLen (4 + payload.length) ≤ 255 then
          { s with
            seq := seqSucc s.seq
            q := s.q ++ [⟨rfFrame Config.framer (s.genBody Config.framer ct tid payload fwd).1, s.now, 0⟩]
            trace := s.trace ++ [.rsp ⟨.ok, []⟩] }
        else { s with trace := s.trace ++ turnedAway (.badOperand 0x21) .badOperand })) ∧
    (s.configured = true → rsv = 0 → s.cap.toNat ≤ s.q.length →
      exec (.enqraw ct fwd rsv tid payload) s = .next (
        if Config.framer.rfLen (4 + payload.length) ≤ 255 then
          { s with
            seq := seqSucc s.seq
            trace := s.trace ++ turnedAway (.queueFull s.q.length s.cap.toNat) .queueFull }
        else { s with trace := s.trace ++ turnedAway (.badOperand 0x21) .badOperand })) ∧
    (s.configured = true → rsv ≠ 0 → exec (.enqraw ct fwd rsv tid payload) s =
      .next { s with trace := s.trace ++ turnedAway (.badOperand 0x21) .badOperand }) ∧
    (s.configured = false → exec (.enqraw ct fwd rsv tid payload) s =
      .next { s with trace := s.trace ++ turnedAway (.notConfigured 0x21) .notConfigured })

/-- FRESET makes the frame of seven zero bytes under command type 5 with the forward flag, so that SEQ advances, and
performs the body of ENQ with it: appended with room in the queue, dropped with QUEUE_FULL on a full one, where the
sequence number stays consumed (44_host_ops R203). That holds when an 11-byte body's frame fits FRAME_MAX, which
depends on RF_LEN alone; else it is BAD_OPERAND, the model's choice between 30_encoding R77 and 44_host_ops R203 (log
9). The premise on CAP and QDEPTH_MAX is part of `State.Inv`. -/
def Obligations.FresetEnqueuesTheZeroedFrame : Prop :=
  ∀ (lid : Half) (s : State), s.configured = true →
    (s.cap.toNat ≤ qdepthMax Config.framer → s.q.length < s.cap.toNat →
      exec (.freset lid) s = .next (
        if Config.framer.rfLen 11 ≤ 255 then
          { s with
            seq := seqSucc s.seq
            q := s.q ++
              [⟨rfFrame Config.framer (s.genBody Config.framer 5 lid [0, 0, 0, 0, 0, 0, 0] true).1, s.now, 0⟩]
            trace := s.trace ++ [.rsp ⟨.ok, []⟩] }
        else { s with trace := s.trace ++ turnedAway (.badOperand 0x31) .badOperand })) ∧
    (s.cap.toNat ≤ s.q.length →
      exec (.freset lid) s = .next (
        if Config.framer.rfLen 11 ≤ 255 then
          { s with
            seq := seqSucc s.seq
            trace := s.trace ++ turnedAway (.queueFull s.q.length s.cap.toNat) .queueFull }
        else { s with trace := s.trace ++ turnedAway (.badOperand 0x31) .badOperand }))

/-- FRESET is ENQRAW of seven zeros under command type 5 with the forward flag (44_host_ops R203, 95_test_vectors
V320), wherever an 11-byte body's frame fits FRAME_MAX. -/
def Obligations.FresetIsAnEnqrawOfZeros : Prop :=
  ∀ (P : Params) (lid : Half) (s : State), s.configured = true → P.rfLen 11 ≤ 255 →
    freset P lid s = enqraw P 5 true 0 lid [0, 0, 0, 0, 0, 0, 0] s

/-- The behaviour depends on the OPEN parameters and each operation on its own alone (00_scope R5). Another framer P
answers an operation as `exec` does in these cases. GENCMD and SCTRL: P has the same HDR_KS, PREAMBLE, HDR2_KEY_INDEX
and RF_FRAME. ENQRAW and FRESET: the same, in states whose CAP fits both FIFOs. ENQ: any P, in such states. SETUP:
exactly when P has the same QDEPTH_MAX, as far as a 16-bit CAP can tell, and the same free radio codes. PAIR: exactly
when P has the same PAIR_SEQ_DERIVE and radio codes. TICK: exactly when P has the same advertisement constants, scan
window, pairing intervals, pairing frames, PAIR_SEQ_INIT, PAIR_SEQ_STEP, radio codes, and T_REPLACE as far as a 32-bit
elapsed time can tell. Under RF_FRAME_CONCAT two framers answer a frame operation alike exactly when they have the same
HDR_KS, PREAMBLE and HDR2_KEY_INDEX. The free radio codes are the model's (log 6). -/
def Obligations.MeaningsDependOnTheirParameters : Prop :=
  (∀ P : Params,
    (P.hdrKs = Config.framer.hdrKs → P.preamble = Config.framer.preamble →
      P.hdr2KeyIndex = Config.framer.hdr2KeyIndex → P.rfLen = Config.framer.rfLen →
      P.rfByte = Config.framer.rfByte →
      (∀ ct fwd rsv tid payload s, gencmd P ct fwd rsv tid payload s = exec (.gencmd ct fwd rsv tid payload) s) ∧
      (∀ tid light s, sctrl P tid light s = exec (.sctrl tid light) s) ∧
      ∀ s : State, s.cap.toNat ≤ qdepthMax P → s.cap.toNat ≤ qdepthMax Config.framer →
        (∀ ct fwd rsv tid payload, enqraw P ct fwd rsv tid payload s = exec (.enqraw ct fwd rsv tid payload) s) ∧
        ∀ lid, freset P lid s = exec (.freset lid) s) ∧
    (∀ (frame : List Byte) (s : State), s.cap.toNat ≤ qdepthMax P → s.cap.toNat ≤ qdepthMax Config.framer →
      enq P frame s = exec (.enq frame) s) ∧
    ((∀ key cap intMin intMax advDur advGap s,
        setup P key cap intMin intMax advDur advGap s = exec (.setup key cap intMin intMax advDur advGap) s) ↔
      min (qdepthMax P) 65535 = min (qdepthMax Config.framer) 65535 ∧ P.radioCode = Config.framer.radioCode) ∧
    ((∀ lid gid s, pair P lid gid s = exec (.pair lid gid) s) ↔
      P.pairSeqDerive = Config.framer.pairSeqDerive ∧ P.radioCode = Config.framer.radioCode) ∧
    ((∀ s, tick P s = exec .tick s) ↔
      P.mfrId = Config.framer.mfrId ∧ P.advFlags = Config.framer.advFlags ∧
      P.advTypeNonconn = Config.framer.advTypeNonconn ∧ P.advAddrType = Config.framer.advAddrType ∧
      P.advChannelMap = Config.framer.advChannelMap ∧ P.advFilterPolicy = Config.framer.advFilterPolicy ∧
      P.scanWindow = Config.framer.scanWindow ∧ P.pairIntMin = Config.framer.pairIntMin ∧
      P.pairIntMax = Config.framer.pairIntMax ∧ discoveryFrame P = discoveryFrame Config.framer ∧
      pairingFrame P = pairingFrame Config.framer ∧ P.pairSeqInit = Config.framer.pairSeqInit ∧
      P.pairSeqStep = Config.framer.pairSeqStep ∧ P.radioCode = Config.framer.radioCode ∧
      min P.tReplace (2 ^ 32) = min Config.framer.tReplace (2 ^ 32))) ∧
  ∀ P Q : Params, IsConcat P → IsConcat Q →
    ((∀ ct fwd rsv tid payload s, gencmd P ct fwd rsv tid payload s = gencmd Q ct fwd rsv tid payload s) ↔
      SameCipherAndAddress P Q) ∧
    ((∀ tid light s, sctrl P tid light s = sctrl Q tid light s) ↔ SameCipherAndAddress P Q) ∧
    ((∀ ct fwd rsv tid payload (s : State), s.cap.toNat ≤ qdepthMax P → s.cap.toNat ≤ qdepthMax Q →
        enqraw P ct fwd rsv tid payload s = enqraw Q ct fwd rsv tid payload s) ↔ SameCipherAndAddress P Q) ∧
    ((∀ lid (s : State), s.cap.toNat ≤ qdepthMax P → s.cap.toNat ≤ qdepthMax Q →
        freset P lid s = freset Q lid s) ↔ SameCipherAndAddress P Q)

/-! ### The scheduler's ticks (42_scheduler) -/

/-- A tick in Idle. With an empty queue it only answers OK. Else it takes the oldest command off the queue, whatever
the radio answers, and configures the wrapped frame; answered 0, it starts advertising with the configured interval
window; answered 0 again, it enters Advertising at NOW. After a failed call the frame is lost, a warning is given, the
state stays Idle and STATE_T is not written (42_scheduler R142, R143, R144). -/
def Obligations.IdleTickServesOneCommand : Prop :=
  ∀ s : State, s.configured = true → s.mode = .normal → s.advState = .idle →
    (s.q = [] → exec .tick s = .next { s with trace := s.trace ++ [.rsp ⟨.ok, []⟩] }) ∧
    ∀ (c : Command) (rest : List Command) (codes : List Nat), s.q = c :: rest →
      (s.radioIn = 0 :: 0 :: codes →
        exec .tick s = .next { s with
          q := rest, advState := .advertising, stateT := s.now, radioIn := codes
          trace := s.trace ++
            [.radio (.cfgAdvData (adWrap Config.framer c.frame)) 0,
             .radio (.startAdv ⟨s.advIntMin.toNat, s.advIntMax.toNat, Config.framer.advTypeNonconn,
                Config.framer.advAddrType, Config.framer.advChannelMap, Config.framer.advFilterPolicy⟩) 0,
             .rsp ⟨.ok, []⟩] }) ∧
      ∀ rc : Nat, rc ≠ 0 →
        (s.radioIn = rc :: codes →
          exec .tick s = .next { s with
            q := rest, radioIn := codes
            trace := s.trace ++ [.radio (.cfgAdvData (adWrap Config.framer c.frame)) rc,
              .warn (.radioConfigFailure rc), .rsp ⟨.ok, []⟩] }) ∧
        (s.radioIn = 0 :: rc :: codes →
          exec .tick s = .next { s with
            q := rest, radioIn := codes
            trace := s.trace ++ [.radio (.cfgAdvData (adWrap Config.framer c.frame)) 0,
              .radio (.startAdv (normalParams Config.framer s)) rc, .warn (.radioStartFailure rc),
              .rsp ⟨.ok, []⟩] })

/-- A tick in Advertising waits while elapsed(STATE_T) < ADV_DUR; from then on it stops the advertisement and enters
Gap at NOW, whether the stop call succeeds or is logged as failed (42_scheduler R145). -/
def Obligations.AdvertisingTickEndsAtTheDuration : Prop :=
  ∀ s : State, s.configured = true → s.mode = .normal → s.advState = .advertising →
    (s.elapsed s.stateT < s.advDur.toNat →
      exec .tick s = .next { s with trace := s.trace ++ [.rsp ⟨.ok, []⟩] }) ∧
    (s.advDur.toNat ≤ s.elapsed s.stateT → ∀ rc codes, s.radioIn = rc :: codes →
      exec .tick s = .next { s with
        advState := .gap, stateT := s.now, radioIn := codes
        trace := s.trace ++ loggedCall .stopAdv rc ++ [.rsp ⟨.ok, []⟩] })

/-- A tick in Gap waits while elapsed(STATE_T) < ADV_GAP; from then on it does what a tick in Idle does, in the same
tick (42_scheduler R146, R147). -/
def Obligations.GapTickFallsThroughToIdle : Prop :=
  ∀ s : State, s.configured = true → s.mode = .normal → s.advState = .gap →
    (s.elapsed s.stateT < s.advGap.toNat →
      exec .tick s = .next { s with trace := s.trace ++ [.rsp ⟨.ok, []⟩] }) ∧
    (s.advGap.toNat ≤ s.elapsed s.stateT → exec .tick s = exec .tick { s with advState := .idle })

/-! ### The session (43_pairing) -/

/-- PAIR, in any mode and any scheduler state: both stop calls, failures logged only; the queue emptied; every
register of the session written; SEQ and the configuration untouched. Before SETUP it is NOT_CONFIGURED (43_pairing
R160). The WARN event of the NOT_CONFIGURED clause is log 18 (DEDUCED), its place before the response the model's
choice (log 8). -/
def Obligations.PairOpensASession : Prop :=
  ∀ (lid gid : Half) (s : State),
    (∀ (rc1 rc2 : Nat) (codes : List Nat), s.configured = true → s.radioIn = rc1 :: rc2 :: codes →
      exec (.pair lid gid) s = .next { s with
        q := [], advState := .idle, mode := .pairing, pairT0 := s.now, phaseT := s.now, lastAdvT := s.now
        pairPhase := .discovery, baseId := lid, curId := lid, groupId := gid
        pairSeqStart := Config.framer.pairSeqDerive lid gid, pairSeq := Config.framer.pairSeqDerive lid gid
        pairDirty := true, radioIn := codes
        trace := s.trace ++ loggedCall .stopScan rc1 ++ loggedCall .stopAdv rc2 ++ [.rsp ⟨.ok, []⟩] }) ∧
    (s.configured = false → exec (.pair lid gid) s =
      .next { s with trace := s.trace ++ turnedAway (.notConfigured 0x30) .notConfigured })

/-- PAIR and TICK answer OK in every configured state, whatever the radio answers and whether or not its answers are
given (43_pairing R160, 42_scheduler R140, 30_encoding R77). -/
def Obligations.PairAndTickAlwaysAnswerOk : Prop :=
  ∀ (lid gid : Half) (s : State), s.configured = true →
    (∃ t evs, exec (.pair lid gid) s = .next t ∧ t.trace = s.trace ++ evs ++ [.rsp ⟨.ok, []⟩]) ∧
    ∃ t evs, exec .tick s = .next t ∧ t.trace = s.trace ++ evs ++ [.rsp ⟨.ok, []⟩]

/-- The tick at or after 60000 ms ends the session: MODE Normal, ADV_STATE Idle, STOP_ADV and START_SCAN called,
failures logged only, nothing else; the scheduler does not run in that tick (43_pairing R163). -/
def Obligations.SessionTimesOut : Prop :=
  ∀ (rc1 rc2 : Nat) (codes : List Nat) (s : State), s.configured = true → s.mode = .pairing →
    60000 ≤ s.elapsed s.pairT0 → s.radioIn = rc1 :: rc2 :: codes →
    exec .tick s = .next { s with
      mode := .normal, advState := .idle, radioIn := codes
      trace := s.trace ++ loggedCall .stopAdv rc1 ++ loggedCall (.startScan Config.framer.scanWindow) rc2 ++
        [.rsp ⟨.ok, []⟩] }

/-- A pairing tick in which nothing is due only answers OK: no timeout, no dwell expiry, no new slot, no replacement
owed and less than T_REPLACE since the last one (43_pairing R162, R166). -/
def Obligations.QuietPairingTick : Prop :=
  ∀ (P : Params) (s : State), s.configured = true → s.mode = .pairing → s.elapsed s.pairT0 < 60000 →
    ((s.pairPhase = .discovery ∧ s.elapsed s.phaseT < 4000) ∨
      (s.pairPhase = .pairing ∧ s.curId.toNat = (s.baseId.toNat + s.elapsed s.phaseT / 5000) % 65536)) →
    s.pairDirty = false → s.elapsed s.lastAdvT < P.tReplace →
    tick P s = .next { s with trace := s.trace ++ [.rsp ⟨.ok, []⟩] }

/-- A Discovery tick before the dwell ends, with a replacement due and both further calls answered 0, broadcasts
DISCOVERY_FRAME with PAIRING_PARAMS; PAIR_SEQ is not stepped (43_pairing R162, R166, R167, R186). -/
def Obligations.DiscoveryTickBroadcasts : Prop :=
  ∀ (rc : Nat) (codes : List Nat) (s : State), s.configured = true → s.mode = .pairing →
    s.pairPhase = .discovery → s.elapsed s.pairT0 < 60000 → s.elapsed s.phaseT < 4000 →
    (s.pairDirty = true ∨ Config.framer.tReplace ≤ s.elapsed s.lastAdvT) → s.radioIn = rc :: 0 :: 0 :: codes →
    exec .tick s = .next { s with
      pairDirty := false, lastAdvT := s.now, radioIn := codes
      trace := s.trace ++ loggedCall .stopAdv rc ++
        [.radio (.cfgAdvData (discoveryFrame Config.framer s.meshKey s.baseId s.groupId)) 0,
         .radio (.startAdv ⟨Config.framer.pairIntMin, Config.framer.pairIntMax, Config.framer.advTypeNonconn,
           Config.framer.advAddrType, Config.framer.advChannelMap, Config.framer.advFilterPolicy⟩) 0, .rsp ⟨.ok, []⟩] }

/-- The Discovery tick at or after 4000 ms enters the Pairing phase at NOW with the base id and broadcasts
PAIRING_FRAME with the sequence value the session started with (43_pairing R164, R167). -/
def Obligations.DwellExpiryEntersThePairingPhase : Prop :=
  ∀ (rc : Nat) (codes : List Nat) (s : State), s.configured = true → s.mode = .pairing →
    s.pairPhase = .discovery → s.elapsed s.pairT0 < 60000 → 4000 ≤ s.elapsed s.phaseT →
    s.radioIn = rc :: 0 :: 0 :: codes →
    exec .tick s = .next { s with
      pairPhase := .pairing, phaseT := s.now, curId := s.baseId, pairDirty := false, lastAdvT := s.now
      pairSeq := Config.framer.pairSeqStep s.pairSeq, radioIn := codes
      trace := s.trace ++ loggedCall .stopAdv rc ++
        [.radio (.cfgAdvData (pairingFrame Config.framer s.meshKey s.baseId s.groupId s.pairSeq)) 0,
         .radio (.startAdv ⟨Config.framer.pairIntMin, Config.framer.pairIntMax, Config.framer.advTypeNonconn,
           Config.framer.advAddrType, Config.framer.advChannelMap, Config.framer.advFilterPolicy⟩) 0, .rsp ⟨.ok, []⟩] }

/-- A Pairing tick in a slot whose id is not the one broadcast moves to it, restarts PAIR_SEQ at PAIR_SEQ_INIT and
broadcasts at once; the id is BASE_ID plus the slot index modulo 2^16 (43_pairing R165, R167). -/
def Obligations.NewSlotForcesABroadcast : Prop :=
  ∀ (rc : Nat) (codes : List Nat) (id : Half) (s : State), s.configured = true → s.mode = .pairing →
    s.pairPhase = .pairing → s.elapsed s.pairT0 < 60000 →
    id.toNat = (s.baseId.toNat + s.elapsed s.phaseT / 5000) % 65536 → id ≠ s.curId →
    s.radioIn = rc :: 0 :: 0 :: codes →
    exec .tick s = .next { s with
      curId := id, pairDirty := false, lastAdvT := s.now
      pairSeq := Config.framer.pairSeqStep Config.framer.pairSeqInit, radioIn := codes
      trace := s.trace ++ loggedCall .stopAdv rc ++
        [.radio (.cfgAdvData (pairingFrame Config.framer s.meshKey id s.groupId Config.framer.pairSeqInit)) 0,
         .radio (.startAdv ⟨Config.framer.pairIntMin, Config.framer.pairIntMax, Config.framer.advTypeNonconn,
           Config.framer.advAddrType, Config.framer.advChannelMap, Config.framer.advFilterPolicy⟩) 0, .rsp ⟨.ok, []⟩] }

/-- A Pairing tick in the slot already broadcast, with a replacement due because one is owed or T_REPLACE has passed
and both further calls answered 0, broadcasts PAIRING_FRAME of the same id with the present PAIR_SEQ, then steps
PAIR_SEQ; the id and the phase stay (43_pairing R165, R166, R167, R169). -/
def Obligations.SameSlotTickRebroadcasts : Prop :=
  ∀ (P : Params) (rc : Nat) (codes : List Nat) (s : State), s.configured = true → s.mode = .pairing →
    s.pairPhase = .pairing → s.elapsed s.pairT0 < 60000 →
    s.curId.toNat = (s.baseId.toNat + s.elapsed s.phaseT / 5000) % 65536 →
    (s.pairDirty = true ∨ P.tReplace ≤ s.elapsed s.lastAdvT) → s.radioIn = rc :: 0 :: 0 :: codes →
    tick P s = .next { s with
      pairDirty := false, lastAdvT := s.now, pairSeq := P.pairSeqStep s.pairSeq, radioIn := codes
      trace := s.trace ++ loggedCall .stopAdv rc ++
        [.radio (.cfgAdvData (pairingFrame P s.meshKey s.curId s.groupId s.pairSeq)) 0,
         .radio (.startAdv ⟨P.pairIntMin, P.pairIntMax, P.advTypeNonconn, P.advAddrType, P.advChannelMap,
           P.advFilterPolicy⟩) 0, .rsp ⟨.ok, []⟩] }

/-- A replacement the radio refuses, at CFG_ADV_DATA or at START_ADV, is abandoned after the failing call: PAIR_DIRTY,
LAST_ADV_T and PAIR_SEQ keep their values, so that it is still due. The tick that made it answers OK, and the phase
and id registers it wrote before, at the end of the dwell or for a new slot, are kept, with the replacement still owed
(43_pairing R164, R165, R166, R168). -/
def Obligations.RefusedReplacementIsRetried : Prop :=
  ∀ (rc0 rc : Nat) (codes : List Nat) (atStart : Bool) (s : State), rc ≠ 0 →
    s.radioIn = refusalCodes rc0 rc atStart ++ codes →
    (∀ P : Params,
      s.replacement P = { s with
        radioIn := codes, trace := s.trace ++ refusalEvents P (s.pairingData P) rc0 rc atStart } ∧
      (s.replacementDue P = true → (s.replacement P).replacementDue P = true)) ∧
    (s.configured = true → s.mode = .pairing → s.elapsed s.pairT0 < 60000 →
      (s.pairPhase = .discovery → s.elapsed s.phaseT < 4000 →
        (s.pairDirty = true ∨ Config.framer.tReplace ≤ s.elapsed s.lastAdvT) →
        exec .tick s = .next { s with
          radioIn := codes
          trace := s.trace ++ refusalEvents Config.framer
            (discoveryFrame Config.framer s.meshKey s.baseId s.groupId) rc0 rc atStart ++ [.rsp ⟨.ok, []⟩] }) ∧
      (s.pairPhase = .discovery → 4000 ≤ s.elapsed s.phaseT →
        exec .tick s = .next { s with
          pairPhase := .pairing, phaseT := s.now, curId := s.baseId, pairDirty := true, radioIn := codes
          trace := s.trace ++ refusalEvents Config.framer
            (pairingFrame Config.framer s.meshKey s.baseId s.groupId s.pairSeq) rc0 rc atStart ++
              [.rsp ⟨.ok, []⟩] }) ∧
      (∀ id : Half, s.pairPhase = .pairing →
        id.toNat = (s.baseId.toNat + s.elapsed s.phaseT / 5000) % 65536 →
        (id = s.curId → (s.pairDirty = true ∨ Config.framer.tReplace ≤ s.elapsed s.lastAdvT) →
          exec .tick s = .next { s with
            radioIn := codes
            trace := s.trace ++ refusalEvents Config.framer
              (pairingFrame Config.framer s.meshKey s.curId s.groupId s.pairSeq) rc0 rc atStart ++
                [.rsp ⟨.ok, []⟩] }) ∧
        (id ≠ s.curId →
          exec .tick s = .next { s with
            curId := id, pairSeq := Config.framer.pairSeqInit, pairDirty := true, radioIn := codes
            trace := s.trace ++ refusalEvents Config.framer
              (pairingFrame Config.framer s.meshKey id s.groupId Config.framer.pairSeqInit) rc0 rc atStart ++
                [.rsp ⟨.ok, []⟩] })))

/-- The source's pairing property: PAIR at t0, then ticks at t0 + 4000, t0 + 9000 and t0 + 60000, whatever the radio
answers, from any configured state: the phase is Pairing, then the id is the base id plus 1, then the session is over
and START_SCAN has been called. The spec derives it in 43_pairing R173 from R163 to R165. -/
def Obligations.PairingPropertyHolds : Prop :=
  ∀ (t0 : Word32) (lid gid : Half) (s : State), s.configured = true →
    ∃ a b c d : State,
      runOps [(t0, .pair lid gid)] s = .next a ∧ a.mode = .pairing ∧ a.pairPhase = .discovery ∧ a.curId = lid ∧
      runOps [(t0 + 4000, .tick)] a = .next b ∧ b.mode = .pairing ∧ b.pairPhase = .pairing ∧ b.curId = lid ∧
      runOps [(t0 + 9000, .tick)] b = .next c ∧ c.mode = .pairing ∧ c.curId = lid + 1 ∧
      runOps [(t0 + 60000, .tick)] c = .next d ∧ d.mode = .normal ∧ d.advState = .idle ∧
      ∃ rc, .radio (.startScan Config.framer.scanWindow) rc ∈ d.trace.drop c.trace.length

/-- The ids a session broadcasts: in a tick of the Pairing phase, entered at least 4000 ms after the session began and
not after NOW, the id is the base id plus at most 11, which the spec derives in 43_pairing R174 from R163 to R165. -/
def Obligations.SessionSweepsAtMostTwelveIds : Prop :=
  ∀ s t : State, s.configured = true → s.mode = .pairing → s.pairPhase = .pairing →
    4000 ≤ (s.phaseT - s.pairT0).toNat → (s.phaseT - s.pairT0).toNat ≤ s.elapsed s.pairT0 →
    s.elapsed s.pairT0 < 60000 → exec .tick s = .next t →
    ∃ k : Nat, k ≤ 11 ∧ t.curId = s.baseId + BitVec.ofNat 16 k

/-- PAIRING_FRAME spells the mesh key in hexadecimal digits, two for each key byte, and ends in PAIR_CHECK of what
precedes it, cut to what 31 bytes allow; both pairing frames have at most 31 bytes; the characters of the digits are
those of ASCII (43_pairing R180 to R185). The cut and the reading of R182 that the two digits of a byte stand together
are the model's (log 4). -/
def Obligations.PairingFrameCarriesKeyAndTrailer : Prop :=
  (∀ (P : Params) (key : Bytes4) (lid gid : Half) (pseq : Byte),
    SpellsKey key (pairingFrame P key lid gid pseq) ∧
    (∃ head : List Byte, pairingFrame P key lid gid pseq = head ++ pairTrailer P head ∧
      ((P.pairCheck head).length + min head.length 8 ≤ 31 → pairTrailer P head = P.pairCheck head)) ∧
    (pairingFrame P key lid gid pseq).length ≤ 31 ∧ (discoveryFrame P key lid gid).length ≤ 31) ∧
  ∀ (upper : Bool) (d : BitVec 4),
    (d.toNat < 10 → (hexChar upper d).toNat = 48 + d.toNat) ∧
    (10 ≤ d.toNat → (hexChar upper d).toNat = (if upper then 55 else 87) + d.toNat)

/-- PAIRING_FRAME is uninterpreted: every function of its arguments whose outputs have at most 31 bytes, spell the key
and end in PAIR_CHECK of what precedes is the PAIRING_FRAME of some framer, as is DISCOVERY_FRAME every function with
at most 31 bytes (30_encoding R67, 43_pairing R180 to R185). The reading of "spell the key" is the model's (log 4). -/
def Obligations.PairingFramesAreUninterpreted : Prop :=
  ∀ (P : Params) (f : Bytes4 → Half → Half → Byte → List Byte) (g : Bytes4 → Half → Half → List Byte),
    (∀ key lid gid pseq, (f key lid gid pseq).length ≤ 31 ∧ SpellsKey key (f key lid gid pseq) ∧
      ∃ head, f key lid gid pseq = head ++ P.pairCheck head) →
    (∀ key lid gid, (g key lid gid).length ≤ 31) →
    pairingFrame { P with pairingRaw := f } = f ∧ discoveryFrame { P with discoveryRaw := g } = g

/-! ### Rules over the whole machine -/

/-- Every step keeps the invariants of the operation boundary, from every state that meets them (10_state R35, each
derived there from the rules it names). -/
def Obligations.StepKeepsTheInvariants : Prop :=
  ∀ s t : State, s.Inv Config.framer → step s = .next t → t.Inv Config.framer

/-- The state after reset meets the invariants (10_state R35). -/
def Obligations.ResetMeetsTheInvariants : Prop :=
  State.reset.Inv Config.framer

/-- From every state that meets the invariants a step answers a next state: no operation blocks, and no data, no radio
answer and no malformed input ends a run (20_memory R56, 60_exceptions R240, 70_reset R282). -/
def Obligations.NoStepEverStops : Prop :=
  ∀ s : State, s.Inv Config.framer → ∃ t : State, step s = .next t

/-- Every operation gives exactly one response, as the last thing it does, after radio calls and warnings only; and
every CFG_ADV_DATA call carries at most 31 bytes (20_memory R50, R51). That the response stands after every warning is
the model's choice (log 8). -/
def Obligations.ExactlyOneResponseEach : Prop :=
  ∀ (i : Instr) (s t : State), exec i s = .next t →
    ∃ (evs : List Event) (r : Response), t.trace = s.trace ++ evs ++ [.rsp r] ∧
      ∀ e ∈ evs, e.isResponse = false ∧ e.withinRadioLimit = true

/-- MODE changes in two ways only: PAIR turns it to Pairing, the timeout tick turns it to Normal; both leave Idle
(derived in 43_pairing R172 from R160 and R163; 10_state R20). -/
def Obligations.ModeChangesOnlyInPairAndTimeout : Prop :=
  ∀ (i : Instr) (s t : State), exec i s = .next t → t.mode ≠ s.mode →
    t.advState = .idle ∧
    ((t.mode = .pairing ∧ ∃ lid gid, i = .pair lid gid) ∨
     (t.mode = .normal ∧ i = .tick ∧ 60000 ≤ s.elapsed s.pairT0))

/-- The configuration registers are written by SETUP only, SEQ by the four operations that generate a frame only, and
then to its successor (10_state R12 to R18). -/
def Obligations.ConfigurationAndSequenceWriters : Prop :=
  ∀ (i : Instr) (s t : State), exec i s = .next t →
    ((∀ key cap n x d g, i ≠ .setup key cap n x d g) →
      t.meshKey = s.meshKey ∧ t.cap = s.cap ∧ t.advIntMin = s.advIntMin ∧ t.advIntMax = s.advIntMax ∧
      t.advDur = s.advDur ∧ t.advGap = s.advGap ∧ t.configured = s.configured) ∧
    (s.configured = true → t.configured = true) ∧
    (t.seq = s.seq ∨ (t.seq = seqSucc s.seq ∧ i.opcode ∈ [(0x10 : Byte), 0x11, 0x21, 0x31]))

/-- The queue changes in four ways only: one entry appended, the oldest entry served by a tick in Normal mode, or all
entries discarded by CLR, PAIR or SETUP; it is never reordered, merged or edited (41_queue R125; derived in R128). -/
def Obligations.QueueIsAFifo : Prop :=
  ∀ (i : Instr) (s t : State), exec i s = .next t →
    t.q = s.q ∨
    (∃ frame, t.q = s.q ++ [⟨frame, s.now, 0⟩] ∧ i.opcode ∈ [(0x20 : Byte), 0x21, 0x31]) ∨
    (t.q = s.q.tail ∧ i = .tick ∧ s.mode = .normal ∧ s.advState ≠ .advertising) ∨
    (t.q = [] ∧ i.opcode ∈ [(0x22 : Byte), 0x30, 0x01])

/-- ENQ, ENQRAW, FRESET, CLR, QSIZE, QEMPTY, GENCMD and SCTRL work in Pairing mode exactly as in Normal mode: no
register of the scheduler or of the session (MODE, ADV_STATE, STATE_T and the pairing registers) has a say in what
they do, none is changed, and they make no radio call (43_pairing R171, 41_queue R120). -/
def Obligations.ProducerOperationsIgnoreTheSession : Prop :=
  ∀ (i : Instr) (s t : State) (r : Registers),
    i.opcode ∉ [(0x01 : Byte), 0x02, 0x30] → exec i s = .next t →
    exec i (s.withSession r) = .next (t.withSession r) ∧
    t.mode = s.mode ∧ t.advState = s.advState ∧ t.stateT = s.stateT ∧ t.pairPhase = s.pairPhase ∧
    t.pairT0 = s.pairT0 ∧ t.phaseT = s.phaseT ∧ t.baseId = s.baseId ∧ t.groupId = s.groupId ∧ t.curId = s.curId ∧
    t.pairSeqStart = s.pairSeqStart ∧ t.pairSeq = s.pairSeq ∧ t.lastAdvT = s.lastAdvT ∧ t.pairDirty = s.pairDirty ∧
    t.radioIn = s.radioIn ∧ t.radioFree = s.radioFree ∧
    ∃ evs, t.trace = s.trace ++ evs ∧ ∀ e ∈ evs, e.isRadio = false

/-- START_SCAN is called by the pairing timeout and by nothing else (70_reset R263). -/
def Obligations.ScanningStartsOnlyAtTheTimeout : Prop :=
  ∀ (i : Instr) (s t : State), exec i s = .next t → (∃ e ∈ t.trace.drop s.trace.length, e.isStartScan = true) →
    i = .tick ∧ s.mode = .pairing ∧ 60000 ≤ s.elapsed s.pairT0

/-! ### The light-payload contract (45_light_payload_contract) -/

/-- Within the contract the mapper's output has one byte or six: one for a light that is off, [0x00], or white only,
its brightness byte; else six: the brightness byte, then blue, red, green scaled if RGB is set, then warm, cold scaled
if COLD_WARM_WHITE is set, else the pair interpolated between 153 and 500 mireds if COLOR_TEMPERATURE is set, and
zeros for what is not set. The brightness byte has bit 7 set and in bits 6:0 the largest whole number not above 127
times the brightness; a scaled channel is the largest whole number not above 255 times the channel (45 R222 to R225).
-/
def Obligations.LightPayloadShape : Prop :=
  (∀ l : LightState, (l.on = false → lightPayload l = [0x00]) ∧
    (l.on = true → lightInContract l = true →
      (l.white = true → lightPayload l = [brightnessByte l.brightness]) ∧
      (l.white = false → ∃ b1 b2 b3 b4 b5 : Byte,
        lightPayload l = [brightnessByte l.brightness, b1, b2, b3, b4, b5] ∧
        (l.rgb = true → b1 = lightScale l.blue ∧ b2 = lightScale l.red ∧ b3 = lightScale l.green) ∧
        (l.rgb = false → b1 = 0 ∧ b2 = 0 ∧ b3 = 0) ∧
        (l.coldWarmWhite = true → b4 = lightScale l.warm ∧ b5 = lightScale l.cold) ∧
        (l.coldWarmWhite = false → l.colorTemperature = true → ∀ t : Rat,
          t = max 0 (min 1 ((l.mireds - 153) / 347)) → b4 = lightScale (1 - t) ∧ b5 = lightScale t) ∧
        (l.coldWarmWhite = false → l.colorTemperature = false → b4 = 0 ∧ b5 = 0)))) ∧
  ∀ x : Rat, 0 ≤ x → x ≤ 1 →
    (brightnessByte x).getLsbD 7 = true ∧
    (((brightnessByte x).extractLsb' 0 7).toNat : Rat) ≤ x * 127 ∧
    x * 127 < ((brightnessByte x).extractLsb' 0 7).toNat + 1 ∧
    ((lightScale x).toNat : Rat) ≤ x * 255 ∧ x * 255 < (lightScale x).toNat + 1

/-- The colour-temperature end points: at and below 153 mireds (B4, B5) = (0xFF, 0x00), at and above 500 (0x00, 0xFF)
(45 R226). -/
def Obligations.ColourTemperatureEndPoints : Prop :=
  ∀ l : LightState, l.on = true → lightInContract l = true → l.white = false → l.coldWarmWhite = false →
    l.colorTemperature = true →
    (l.mireds ≤ 153 → (lightPayload l).drop 4 = [0xFF, 0x00]) ∧
    (500 ≤ l.mireds → (lightPayload l).drop 4 = [0x00, 0xFF])
end

