-- ==== Sys2Proof/Laws/State.lean ====
section
/-! SUPPORT. What each elementary update of the state leaves in each part of it, by definition: the registers as a
whole, and the ports one by one. -/

namespace Sys2Proof.Machine

/-! ### emit -/

@[simp] theorem State.emit_toRegisters (s : State) (e : Event) : (s.emit e).toRegisters = s.toRegisters := rfl
@[simp] theorem State.emit_pending (s : State) (e : Event) : (s.emit e).pending = s.pending := rfl
@[simp] theorem State.emit_now (s : State) (e : Event) : (s.emit e).now = s.now := rfl
@[simp] theorem State.emit_radioIn (s : State) (e : Event) : (s.emit e).radioIn = s.radioIn := rfl
@[simp] theorem State.emit_radioFree (s : State) (e : Event) : (s.emit e).radioFree = s.radioFree := rfl
@[simp] theorem State.emit_trace (s : State) (e : Event) : (s.emit e).trace = s.trace ++ [e] := rfl

/-! ### warn -/

@[simp] theorem State.warn_toRegisters (s : State) (w : Warning) : (s.warn w).toRegisters = s.toRegisters := rfl
@[simp] theorem State.warn_pending (s : State) (w : Warning) : (s.warn w).pending = s.pending := rfl
@[simp] theorem State.warn_now (s : State) (w : Warning) : (s.warn w).now = s.now := rfl
@[simp] theorem State.warn_radioIn (s : State) (w : Warning) : (s.warn w).radioIn = s.radioIn := rfl
@[simp] theorem State.warn_radioFree (s : State) (w : Warning) : (s.warn w).radioFree = s.radioFree := rfl
@[simp] theorem State.warn_trace (s : State) (w : Warning) : (s.warn w).trace = s.trace ++ [.warn w] := rfl

/-! ### respond -/

@[simp] theorem State.respond_toRegisters (s : State) (st : Status) (d : List Byte) : (s.respond st d).toRegisters = s.toRegisters := rfl
@[simp] theorem State.respond_pending (s : State) (st : Status) (d : List Byte) : (s.respond st d).pending = s.pending := rfl
@[simp] theorem State.respond_now (s : State) (st : Status) (d : List Byte) : (s.respond st d).now = s.now := rfl
@[simp] theorem State.respond_radioIn (s : State) (st : Status) (d : List Byte) : (s.respond st d).radioIn = s.radioIn := rfl
@[simp] theorem State.respond_radioFree (s : State) (st : Status) (d : List Byte) : (s.respond st d).radioFree = s.radioFree := rfl
@[simp] theorem State.respond_trace (s : State) (st : Status) (d : List Byte) : (s.respond st d).trace = s.trace ++ [.rsp ⟨st, d⟩] := rfl

/-! ### qClear -/

@[simp] theorem State.qClear_toRegisters (s : State) : (s.qClear).toRegisters = { s.toRegisters with q := [] } := rfl
@[simp] theorem State.qClear_pending (s : State) : (s.qClear).pending = s.pending := rfl
@[simp] theorem State.qClear_now (s : State) : (s.qClear).now = s.now := rfl
@[simp] theorem State.qClear_radioIn (s : State) : (s.qClear).radioIn = s.radioIn := rfl
@[simp] theorem State.qClear_radioFree (s : State) : (s.qClear).radioFree = s.radioFree := rfl
@[simp] theorem State.qClear_trace (s : State) : (s.qClear).trace = s.trace := rfl

/-! ### accept -/

@[simp] theorem State.accept_toRegisters (s : State) (rest : List HostInput) (t : Word32) : (s.accept rest t).toRegisters = s.toRegisters := rfl
@[simp] theorem State.accept_pending (s : State) (rest : List HostInput) (t : Word32) : (s.accept rest t).pending = rest := rfl
@[simp] theorem State.accept_now (s : State) (rest : List HostInput) (t : Word32) : (s.accept rest t).now = t := rfl
@[simp] theorem State.accept_radioIn (s : State) (rest : List HostInput) (t : Word32) : (s.accept rest t).radioIn = s.radioIn := rfl
@[simp] theorem State.accept_radioFree (s : State) (rest : List HostInput) (t : Word32) : (s.accept rest t).radioFree = s.radioFree := rfl
@[simp] theorem State.accept_trace (s : State) (rest : List HostInput) (t : Word32) : (s.accept rest t).trace = s.trace := rfl

/-! ### takeReset -/

@[simp] theorem State.takeReset_toRegisters (s : State) : (s.takeReset).toRegisters = Registers.reset := rfl
@[simp] theorem State.takeReset_pending (s : State) : (s.takeReset).pending = s.pending := rfl
@[simp] theorem State.takeReset_now (s : State) : (s.takeReset).now = s.now := rfl
@[simp] theorem State.takeReset_radioIn (s : State) : (s.takeReset).radioIn = s.radioIn := rfl
@[simp] theorem State.takeReset_radioFree (s : State) : (s.takeReset).radioFree = s.radioFree := rfl
@[simp] theorem State.takeReset_trace (s : State) : (s.takeReset).trace = s.trace := rfl

/-! ### Updates of two events or more -/

@[simp] theorem State.reject_toRegisters (s : State) (w : Warning) (st : Status) :
    (s.reject w st).toRegisters = s.toRegisters := rfl

@[simp] theorem State.reject_pending (s : State) (w : Warning) (st : Status) :
    (s.reject w st).pending = s.pending := rfl

@[simp] theorem State.reject_now (s : State) (w : Warning) (st : Status) : (s.reject w st).now = s.now := rfl

@[simp] theorem State.reject_radioIn (s : State) (w : Warning) (st : Status) :
    (s.reject w st).radioIn = s.radioIn := rfl

@[simp] theorem State.reject_radioFree (s : State) (w : Warning) (st : Status) :
    (s.reject w st).radioFree = s.radioFree := rfl

@[simp] theorem State.reject_trace (s : State) (w : Warning) (st : Status) :
    (s.reject w st).trace = s.trace ++ [.warn w, .rsp ⟨st, []⟩] := by
  simp [State.reject]

end Sys2Proof.Machine
end

