-- ==== Sys2Proof/Laws/Ops.lean ====
section
/-! SUPPORT. One lemma for each shared operation that says everything it can do: the gate, the radio port, the FIFO
primitives, the body of ENQ, time. -/

namespace Sys2Proof.Machine

/-! ### Whole updates -/

/-- A turned-away operation leaves its warning and its response on the trace, and nothing else. -/
theorem State.reject_eq (s : State) (w : Warning) (st : Status) :
    s.reject w st = { s with trace := s.trace ++ turnedAway w st } := by
  simp [State.reject, State.warn, State.respond, State.emit, turnedAway]

/-- A response is one event on the trace, and nothing else. -/
theorem State.respond_eq (s : State) (st : Status) (d : List Byte) :
    s.respond st d = { s with trace := s.trace ++ [.rsp ⟨st, d⟩] } := rfl

/-! ### The gate -/

@[simp] theorem gated_configured {op : Byte} {s : State} {r : Result} (h : s.configured = true) : gated op s r = r := by
  simp [gated, h]

@[simp] theorem gated_unconfigured {op : Byte} {s : State} {r : Result} (h : s.configured = false) :
    gated op s r = .next (s.reject (.notConfigured op) .notConfigured) := by
  simp [gated, h]

theorem gated_next {op : Byte} {s t : State} {r : Result} (h : gated op s r = .next t) :
    (s.configured = false ∧ t = s.reject (.notConfigured op) .notConfigured) ∨ (s.configured = true ∧ r = .next t) := by
  cases hc : s.configured with
  | false => rw [gated_unconfigured hc] at h; exact .inl ⟨rfl, (Host.Outcome.next.inj h).symm⟩
  | true => rw [gated_configured hc] at h; exact .inr ⟨rfl, h⟩

/-! ### The radio port -/

@[simp] theorem State.drawCode_toRegisters (s : State) : s.drawCode.toRegisters = s.toRegisters := by
  unfold State.drawCode; split <;> rfl

@[simp] theorem State.drawCode_pending (s : State) : s.drawCode.pending = s.pending := by
  unfold State.drawCode; split <;> rfl

@[simp] theorem State.drawCode_now (s : State) : s.drawCode.now = s.now := by
  unfold State.drawCode; split <;> rfl

@[simp] theorem State.drawCode_trace (s : State) : s.drawCode.trace = s.trace := by
  unfold State.drawCode; split <;> rfl

@[simp] theorem State.radio_fst (P : Params) (call : RadioCall) (s : State) : (s.radio P call).1 = s.nextCode P := rfl

@[simp] theorem State.radio_snd (P : Params) (call : RadioCall) (s : State) :
    (s.radio P call).2 = s.drawCode.emit (.radio call (s.nextCode P)) := rfl

/-- The next code depends on the radio's inputs alone. -/
theorem State.nextCode_congr (P : Params) {s t : State} (h : t.radioIn = s.radioIn) (h' : t.radioFree = s.radioFree) :
    t.nextCode P = s.nextCode P := by
  unfold State.nextCode; rw [h, h']

/-- A logged call: one code drawn, the call and perhaps one warning on the trace, nothing else. -/
theorem State.radioLogged_eq (P : Params) (call : RadioCall) (s : State) :
    s.radioLogged P call = { s.drawCode with trace := s.trace ++ loggedCall call (s.nextCode P) } := by
  unfold State.radioLogged loggedCall
  by_cases h : s.nextCode P = 0 <;> simp [h, State.warn, State.emit]

@[simp] theorem State.radioLogged_toRegisters (P : Params) (call : RadioCall) (s : State) :
    (s.radioLogged P call).toRegisters = s.toRegisters := by
  rw [State.radioLogged_eq]; exact s.drawCode_toRegisters

@[simp] theorem State.radioLogged_pending (P : Params) (call : RadioCall) (s : State) :
    (s.radioLogged P call).pending = s.pending := by
  rw [State.radioLogged_eq]; exact s.drawCode_pending

@[simp] theorem State.radioLogged_now (P : Params) (call : RadioCall) (s : State) :
    (s.radioLogged P call).now = s.now := by
  rw [State.radioLogged_eq]; exact s.drawCode_now

@[simp] theorem State.radioLogged_trace (P : Params) (call : RadioCall) (s : State) :
    (s.radioLogged P call).trace = s.trace ++ loggedCall call (s.nextCode P) := by
  rw [State.radioLogged_eq]

/-! ### The FIFO -/

theorem State.qPush_eq_some {P : Params} {c : Command} {s t : State} :
    s.qPush P c = some t ↔ s.q.length < qdepthMax P ∧ t = { s with q := s.q ++ [c] } := by
  unfold State.qPush
  split <;> simp_all [eq_comm]

theorem State.qPop_eq_some {s t : State} {c : Command} :
    s.qPop = some (c, t) ↔ ∃ rest, s.q = c :: rest ∧ t = { s with q := rest } := by
  unfold State.qPop
  split <;> simp_all [eq_comm]

/-- The body of ENQ with room: the entry is appended (41_queue R120). -/
theorem enqBody_room {P : Params} {frame : List Byte} {s : State} (h : s.q.length < s.cap.toNat)
    (hd : s.cap.toNat ≤ qdepthMax P) :
    enqBody P frame s =
      .next ({ s with q := s.q ++ [(⟨frame, s.now, 0⟩ : Command)] }.respond .ok []) := by
  have h1 : ¬ s.cap.toNat ≤ s.q.length := by omega
  have h2 : s.q.length < qdepthMax P := by omega
  simp [enqBody, State.qLen, State.qPush, h1, h2]

/-- The body of ENQ on a full queue: the frame is dropped (41_queue R120). -/
theorem enqBody_full {P : Params} {frame : List Byte} {s : State} (h : s.cap.toNat ≤ s.q.length) :
    enqBody P frame s = .next (s.reject (.queueFull s.q.length s.cap.toNat) .queueFull) := by
  simp [enqBody, State.qLen, h]

/-- Everything the body of ENQ can do when it answers a next state. -/
theorem enqBody_next {P : Params} {frame : List Byte} {s t : State} (h : enqBody P frame s = .next t) :
    (s.cap.toNat ≤ s.q.length ∧ t = s.reject (.queueFull s.q.length s.cap.toNat) .queueFull) ∨
    (s.q.length < s.cap.toNat ∧ s.q.length < qdepthMax P ∧
      t = { s with q := s.q ++ [(⟨frame, s.now, 0⟩ : Command)] }.respond .ok []) := by
  by_cases hc : s.cap.toNat ≤ s.q.length
  · rw [enqBody_full hc] at h; exact .inl ⟨hc, (Host.Outcome.next.inj h).symm⟩
  · by_cases hd : s.q.length < qdepthMax P <;> simp [enqBody, State.qLen, State.qPush, hc, hd] at h
    exact .inr ⟨by omega, hd, h.symm⟩

/-! ### Time -/

@[simp] theorem State.expired_iff (s : State) (t : Word32) (d : Nat) : s.expired t d = true ↔ d ≤ s.elapsed t := by
  simp [State.expired]

/-- A duration test depends on NOW alone. -/
theorem State.elapsed_congr {s s' : State} (h : s'.now = s.now) (t : Word32) : s'.elapsed t = s.elapsed t := by
  simp [State.elapsed, h]

end Sys2Proof.Machine
end

