-- ==== Sys2Proof/Laws/Codec.lean ====
section
/-! SUPPORT. What the codec's internal functions produce: lengths, the sequence counter's successor, and the one
register a frame's generation writes. -/

namespace Sys2Proof.Machine

/-- The successor in numbers (40_codec R90). -/
theorem seqSucc_toNat (v : Byte) : (seqSucc v).toNat = if v.toNat = 254 then 1 else (v.toNat + 1) % 256 := by
  revert v; decide

/-- From a value in [1,254] the successor is in [1,254] (40_codec R91). -/
theorem seqSucc_range {v : Byte} (h : 1 ≤ v.toNat ∧ v.toNat ≤ 254) :
    1 ≤ (seqSucc v).toNat ∧ (seqSucc v).toNat ≤ 254 := by
  rw [seqSucc_toNat]; split <;> omega

@[simp] theorem xorFrom_length (ks key : Bytes4) (i : Nat) (b : List Byte) : (xorFrom ks key i b).length = b.length := by
  induction b generalizing i with
  | nil => rfl
  | cons v vs ih => simp [xorFrom, ih]

@[simp] theorem xorCrypt_length (ks key : Bytes4) (b : List Byte) : (xorCrypt ks key b).length = b.length :=
  xorFrom_length ks key 0 b

@[simp] theorem plainBody_length (P : Params) (key : Bytes4) (seq : Byte) (ct : BitVec 3) (tid : Half)
    (payload : List Byte) (fwd : Bool) : (plainBody P key seq ct tid payload fwd).length = 4 + payload.length := by
  simp [plainBody]; omega

@[simp] theorem rfFrame_length (P : Params) (body : List Byte) : (rfFrame P body).length = P.rfLen body.length := by
  simp [rfFrame]

@[simp] theorem genFrame_length (P : Params) (ct : BitVec 3) (tid : Half) (payload : List Byte) (fwd : Bool) (s : State) :
    (s.genFrame P ct tid payload fwd).1.length = P.rfLen (4 + payload.length) := by
  simp [State.genFrame, State.genBody]

/-- Generating a frame writes SEQ and nothing else (40_codec R97). -/
@[simp] theorem genFrame_snd (P : Params) (ct : BitVec 3) (tid : Half) (payload : List Byte) (fwd : Bool) (s : State) :
    (s.genFrame P ct tid payload fwd).2 = { s with seq := seqSucc s.seq } := rfl

theorem genFrame_fst (P : Params) (ct : BitVec 3) (tid : Half) (payload : List Byte) (fwd : Bool) (s : State) :
    (s.genFrame P ct tid payload fwd).1 =
      rfFrame P (xorCrypt P.hdrKs s.meshKey (plainBody P s.meshKey s.seq ct tid payload fwd)) := rfl

@[simp] theorem frameFits_iff (P : Params) (n : Nat) : frameFits P n = true ↔ P.rfLen (4 + n) ≤ frameMax := by
  simp [frameFits]

@[simp] theorem reservedClear_iff (rsv : BitVec 4) : reservedClear rsv = true ↔ rsv = 0 := by
  simp [reservedClear]

end Sys2Proof.Machine
end

