-- ==== Sys2Proof/Laws/Decode.lean ====
section
/-! SUPPORT. The byte-order and bit-field helpers of the encoding undo each other, so that a round trip never unfolds
them. -/

namespace Sys2Proof

@[simp] theorem le16_loByte_hiByte (h : Half) : le16 (loByte h) (hiByte h) = h := by
  apply BitVec.eq_of_getLsbD_eq
  intro i hi
  simp only [le16, loByte, hiByte, BitVec.getLsbD_append, BitVec.getLsbD_extractLsb']
  by_cases h8 : i < 8
  · simp [h8]
  · simp [h8, show i - 8 < 8 by omega, show 8 + (i - 8) = i by omega]

@[simp] theorem loByte_le16 (lo hi : Byte) : loByte (le16 lo hi) = lo := by
  apply BitVec.eq_of_getLsbD_eq
  intro i h
  simp only [le16, loByte, BitVec.getLsbD_append, BitVec.getLsbD_extractLsb']
  simp [h]

@[simp] theorem hiByte_le16 (lo hi : Byte) : hiByte (le16 lo hi) = hi := by
  apply BitVec.eq_of_getLsbD_eq
  intro i h
  simp only [le16, hiByte, BitVec.getLsbD_append, BitVec.getLsbD_extractLsb']
  simp [h]

@[simp] theorem le16Bytes_le16 (lo hi : Byte) : le16Bytes (le16 lo hi) = [lo, hi] := by
  simp [le16Bytes]

/-- The four bytes of a 32-bit quantity make it up again. -/
@[simp] theorem le32_extract (w : Word32) :
    le32 (w.extractLsb' 0 8) (w.extractLsb' 8 8) (w.extractLsb' 16 8) (w.extractLsb' 24 8) = w := by
  apply BitVec.eq_of_getLsbD_eq
  intro i hi
  simp only [le32, BitVec.getLsbD_append, BitVec.getLsbD_extractLsb']
  have h4 : i < 8 ∨ (8 ≤ i ∧ i < 16) ∨ (16 ≤ i ∧ i < 24) ∨ 24 ≤ i := by omega
  rcases h4 with h | h | h | h
  · simp [h, show i < 16 by omega]
  · simp [h, show ¬ i < 8 by omega, show i - 8 < 8 by omega]
  · simp [show ¬ i < 16 by omega, show i - 16 < 8 by omega, show 16 + (i - 16) = i by omega]
  · simp [show ¬ i < 16 by omega, show ¬ i - 16 < 8 by omega, show i - 16 - 8 < 8 by omega,
      show 24 + (i - 16 - 8) = i by omega]

@[simp] theorem le32Bytes_le32 (b0 b1 b2 b3 : Byte) : le32Bytes (le32 b0 b1 b2 b3) = [b0, b1, b2, b3] := by
  simp only [le32Bytes, List.cons.injEq, and_true]
  refine ⟨?_, ?_, ?_, ?_⟩ <;> apply BitVec.eq_of_getLsbD_eq <;> intro i h <;>
    simp only [le32, BitVec.getLsbD_append, BitVec.getLsbD_extractLsb']
  · simp [h, show i < 16 by omega]
  · simp [h, show 8 + i < 16 by omega]
  · simp [h, show 16 + i - 16 = i by omega]
  · rw [if_neg (by omega), if_neg (by omega), show 24 + i - 16 - 8 = i by omega]; simp [h]

/-- The three fields of gflags are read back from it (30_encoding R71). -/
theorem gflags_fields (ct : BitVec 3) (fwd : Bool) (rsv : BitVec 4) :
    gflagsCt (gflags ct fwd rsv) = ct ∧ gflagsFwd (gflags ct fwd rsv) = fwd ∧ gflagsRsv (gflags ct fwd rsv) = rsv := by
  revert ct fwd rsv; decide

/-- gflags is made up of its three fields (30_encoding R71). -/
@[simp] theorem gflags_of_fields (g : Byte) : gflags (gflagsCt g) (gflagsFwd g) (gflagsRsv g) = g := by
  revert g; decide

end Sys2Proof
end

