-- ==== Sys2Proof/Laws/Tick.lean ====
section
/-! SUPPORT. Everything the shared operations of a tick and of PAIR can do, in two parts each: what becomes of the
registers, and what goes out on the ports (`Outputs`). -/

namespace Sys2Proof.Machine

/-! ### What goes out -/

/-- From `s` to `t` events that satisfy `ok` went out, and the framer's inputs other than the radio's answers stay. -/
def State.Outputs (ok : Event → Bool) (s t : State) : Prop :=
  t.pending = s.pending ∧ t.now = s.now ∧ ∃ evs, t.trace = s.trace ++ evs ∧ ∀ e ∈ evs, ok e = true

/-- What a tick sends before its response: no response, at most 31 bytes for the radio. -/
def Event.inTick (e : Event) : Bool := !e.isResponse && e.withinRadioLimit

/-- The same without START_SCAN, which only the session timeout calls. -/
def Event.inTickNoScan (e : Event) : Bool := e.inTick && !e.isStartScan

theorem Event.inTick_of_noScan {e : Event} (h : e.inTickNoScan = true) : e.inTick = true := by
  simp only [Event.inTickNoScan, Bool.and_eq_true] at h; exact h.1

theorem State.Outputs.refl (ok : Event → Bool) (s : State) : s.Outputs ok s := ⟨rfl, rfl, [], by simp, by simp⟩

theorem State.Outputs.trans {ok : Event → Bool} {s t u : State} (h : s.Outputs ok t) (h' : t.Outputs ok u) :
    s.Outputs ok u := by
  obtain ⟨p, n, e, he, ho⟩ := h
  obtain ⟨p', n', e', he', ho'⟩ := h'
  refine ⟨p'.trans p, n'.trans n, e ++ e', by rw [he', he, List.append_assoc], fun x hx => ?_⟩
  rcases List.mem_append.mp hx with hx | hx
  · exact ho x hx
  · exact ho' x hx

theorem State.Outputs.mono {ok ok' : Event → Bool} (hk : ∀ e, ok e = true → ok' e = true) {s t : State}
    (h : s.Outputs ok t) : s.Outputs ok' t := by
  obtain ⟨p, n, e, he, ho⟩ := h
  exact ⟨p, n, e, he, fun x hx => hk x (ho x hx)⟩

/-- A change of registers sends nothing. -/
theorem State.outputs_of_ports {ok : Event → Bool} {s t : State} (h : t.toPorts = s.toPorts) : s.Outputs ok t := by
  have hp := congrArg Ports.pending h
  have hn := congrArg Ports.now h
  have ht := congrArg Ports.trace h
  exact ⟨hp, hn, [], by simpa using ht, by simp⟩

theorem State.outputs_emit {ok : Event → Bool} {e : Event} (h : ok e = true) (s : State) : s.Outputs ok (s.emit e) :=
  ⟨rfl, rfl, [e], rfl, by simpa using h⟩

theorem State.outputs_radio {ok : Event → Bool} (P : Params) (call : RadioCall) (s : State)
    (h : ∀ rc, ok (.radio call rc) = true) : s.Outputs ok (s.radio P call).2 :=
  ⟨by simp, by simp, [.radio call (s.nextCode P)], by simp, by simpa using h _⟩

theorem State.outputs_radioLogged {ok : Event → Bool} (P : Params) (call : RadioCall) (s : State)
    (h : ∀ rc, ok (.radio call rc) = true) (hw : ∀ w, ok (.warn w) = true) : s.Outputs ok (s.radioLogged P call) := by
  refine ⟨by simp, by simp, loggedCall call (s.nextCode P), by simp, fun e he => ?_⟩
  unfold loggedCall at he
  split at he <;> simp at he
  · rw [he]; exact h _
  · rcases he with rfl | rfl
    · exact h _
    · exact hw _

/-! ### Lengths of advertisement data -/

theorem adWrap_length_le (P : Params) (frame : List Byte) : (adWrap P frame).length ≤ advLimit := by
  simp [adWrap, advLimit]; omega

@[simp] theorem keyDigits_length (key : Bytes4) : (keyDigits key).length = 8 := rfl

/-- Everything PAIRING_FRAME can answer: the free function's own output where that is legal, else the key's digits and
their trailer; at most 31 bytes either way. -/
theorem pairingFrame_cases (P : Params) (key : Bytes4) (lid gid : Half) (pseq : Byte) :
    (pairingLegal P key (P.pairingRaw key lid gid pseq) = true ∧
      pairingFrame P key lid gid pseq = P.pairingRaw key lid gid pseq) ∨
    (pairingLegal P key (P.pairingRaw key lid gid pseq) = false ∧
      pairingFrame P key lid gid pseq = keyDigits key ++ pairTrailer P (keyDigits key)) := by
  unfold pairingFrame
  cases h : pairingLegal P key (P.pairingRaw key lid gid pseq) <;> simp [h]

theorem pairingFrame_length_le (P : Params) (key : Bytes4) (lid gid : Half) (pseq : Byte) :
    (pairingFrame P key lid gid pseq).length ≤ advLimit := by
  rcases pairingFrame_cases P key lid gid pseq with ⟨h, e⟩ | ⟨_, e⟩
  · simp only [pairingLegal, Bool.and_eq_true, decide_eq_true_eq] at h
    rw [e]; exact h.1.1
  · rw [e, List.length_append, keyDigits_length, pairTrailer, List.length_take, keyDigits_length]
    simp only [advLimit]; omega

theorem pairingData_length_le (P : Params) (s : State) : (s.pairingData P).length ≤ advLimit := by
  unfold State.pairingData
  split
  · simp [discoveryFrame]
  · exact pairingFrame_length_le ..

/-! ### The scheduler's steps (42_scheduler R142 to R147) -/

/-- The registers after the Idle step: nothing, or the oldest entry is gone and perhaps Advertising is entered. -/
theorem State.idleStep_toRegisters (P : Params) (s : State) :
    (s.q = [] ∧ s.idleStep P = s) ∨
    (s.q ≠ [] ∧ ((s.idleStep P).toRegisters = { s.toRegisters with q := s.q.tail } ∨
      (s.idleStep P).toRegisters =
        { s.toRegisters with q := s.q.tail, advState := .advertising, stateT := s.now })) := by
  cases hq : s.q with
  | nil => exact .inl ⟨rfl, by simp [State.idleStep, State.deq, State.qPop, hq]⟩
  | cons c rest =>
    refine .inr ⟨by simp, ?_⟩
    simp only [State.idleStep, State.deq, State.qPop, hq, List.tail_cons]
    split
    · left; simp
    · split
      · left; simp
      · right; simp

/-- What the Idle step sends. -/
theorem State.idleStep_outputs (P : Params) (s : State) : s.Outputs Event.inTickNoScan (s.idleStep P) := by
  unfold State.idleStep
  split
  · exact .refl _ s
  · rename_i c s0 h
    rw [State.deq, State.qPop_eq_some] at h
    obtain ⟨rest, _, rfl⟩ := h
    have hw : ∀ w, Event.inTickNoScan (.warn w) = true := fun _ => rfl
    have h0 : s.Outputs Event.inTickNoScan { s with q := rest } := State.outputs_of_ports rfl
    have h1 := h0.trans (State.outputs_radio P (.cfgAdvData (adWrap P c.frame)) _ (fun rc => by
      simpa [Event.inTickNoScan, Event.inTick, Event.isResponse, Event.withinRadioLimit, Event.isStartScan]
        using adWrap_length_le P c.frame))
    dsimp only
    split
    · exact h1.trans (State.outputs_emit (hw _) _)
    · split
      · exact (h1.trans (State.outputs_radio P (.startAdv _) _ (by intro; rfl))).trans (State.outputs_emit (hw _) _)
      · exact (h1.trans (State.outputs_radio P (.startAdv _) _ (by intro; rfl))).trans (State.outputs_of_ports rfl)

/-- The registers after a scheduler tick, by the state it finds. -/
theorem State.schedulerTick_toRegisters (P : Params) (s : State) :
    (s.schedulerTick P).toRegisters = s.toRegisters ∨
    (s.advState = .advertising ∧ (s.schedulerTick P).toRegisters =
      { s.toRegisters with advState := .gap, stateT := s.now }) ∨
    (s.advState ≠ .advertising ∧ ((s.schedulerTick P).toRegisters = { s.toRegisters with advState := .idle } ∨
      (s.schedulerTick P).toRegisters = { s.toRegisters with q := s.q.tail, advState := .idle } ∨
      (s.schedulerTick P).toRegisters =
        { s.toRegisters with q := s.q.tail, advState := .advertising, stateT := s.now })) := by
  have idle : ∀ u : State, u.now = s.now → u.toRegisters = { s.toRegisters with advState := .idle } →
      (u.idleStep P).toRegisters = { s.toRegisters with advState := .idle } ∨
      (u.idleStep P).toRegisters = { s.toRegisters with q := s.q.tail, advState := .idle } ∨
      (u.idleStep P).toRegisters =
        { s.toRegisters with q := s.q.tail, advState := .advertising, stateT := s.now } := by
    intro u hn hu
    rcases u.idleStep_toRegisters P with ⟨_, h⟩ | ⟨_, h | h⟩
    · left; rw [h, hu]
    · right; left; rw [h, hu]
    · right; right; rw [h, hu, hn]
  cases ha : s.advState with
  | idle =>
    right; right
    refine ⟨by simp, ?_⟩
    simp only [State.schedulerTick, ha]
    exact idle s rfl (by rw [← ha])
  | advertising =>
    simp only [State.schedulerTick, ha, State.advertisingStep]
    split
    · right; left; simp
    · left; rfl
  | gap =>
    simp only [State.schedulerTick, ha, State.gapStep]
    split
    · right; right
      exact ⟨by simp, idle _ rfl rfl⟩
    · left; rfl

/-- What a scheduler tick sends. -/
theorem State.schedulerTick_outputs (P : Params) (s : State) :
    s.Outputs Event.inTickNoScan (s.schedulerTick P) := by
  unfold State.schedulerTick
  split
  · exact s.idleStep_outputs P
  · unfold State.advertisingStep
    split
    · exact (State.outputs_radioLogged P .stopAdv s (fun _ => rfl) (fun _ => rfl)).trans (State.outputs_of_ports rfl)
    · exact .refl _ s
  · unfold State.gapStep
    split
    · exact (State.outputs_of_ports rfl).trans (State.idleStep_outputs P _)
    · exact .refl _ s

/-! ### The session's steps (43_pairing R162 to R169) -/

/-- The registers after the phase's own bookkeeping. -/
theorem State.phaseStep_cases (P : Params) (s : State) :
    s.phaseStep P = s ∨
    (s.pairPhase = .discovery ∧ tDiscovery ≤ s.elapsed s.phaseT ∧ s.phaseStep P = s.dwellExpiry) ∨
    (s.pairPhase = .pairing ∧ s.slotId ≠ s.curId ∧
      s.phaseStep P = { s with curId := s.slotId, pairSeq := P.pairSeqInit, pairDirty := true }) := by
  cases hp : s.pairPhase with
  | discovery =>
    simp only [State.phaseStep, hp]
    split
    · rename_i h; right; left; exact ⟨trivial, by simpa using h, rfl⟩
    · left; rfl
  | pairing =>
    simp only [State.phaseStep, hp, State.slotUpdate]
    split
    · left; rfl
    · rename_i h; right; right; exact ⟨trivial, h, rfl⟩

/-- The registers after a replacement: as they were after a refused call, else step 5's. -/
theorem State.replacement_toRegisters (P : Params) (s : State) :
    (s.replacement P).toRegisters = s.toRegisters ∨
    (s.replacement P).toRegisters = (s.replaced P).toRegisters := by
  unfold State.replacement
  dsimp only
  split
  · left; simp
  · split
    · left; simp
    · right; simp [State.replaced]

/-- What a replacement sends. -/
theorem State.replacement_outputs (P : Params) (s : State) : s.Outputs Event.inTickNoScan (s.replacement P) := by
  have hw : ∀ w, Event.inTickNoScan (.warn w) = true := fun _ => rfl
  have h0 := State.outputs_radioLogged (ok := Event.inTickNoScan) P .stopAdv s (fun _ => rfl) (fun _ => rfl)
  have h1 := h0.trans (State.outputs_radio P (.cfgAdvData (s.pairingData P)) _ (fun rc => by
    simpa [Event.inTickNoScan, Event.inTick, Event.isResponse, Event.withinRadioLimit, Event.isStartScan]
      using pairingData_length_le P s))
  unfold State.replacement
  dsimp only
  split
  · exact h1.trans (State.outputs_emit (hw _) _)
  · have h2 := h1.trans (State.outputs_radio P (.startAdv (pairingParams P)) _ (fun _ => rfl))
    split
    · exact h2.trans (State.outputs_emit (hw _) _)
    · exact h2.trans (State.outputs_of_ports rfl)

/-- Everything a pairing tick can do: the timeout, or the phase's bookkeeping and then perhaps a replacement. -/
theorem State.pairingTick_cases (P : Params) (s : State) :
    (tSession ≤ s.elapsed s.pairT0 ∧ s.pairingTick P = s.timeout P) ∨
    (s.elapsed s.pairT0 < tSession ∧
      ((s.phaseStep P).replacementDue P = true ∧ s.pairingTick P = (s.phaseStep P).replacement P ∨
       (s.phaseStep P).replacementDue P = false ∧ s.pairingTick P = s.phaseStep P)) := by
  unfold State.pairingTick
  by_cases h : tSession ≤ s.elapsed s.pairT0
  · left; simp [h]
  · right
    refine ⟨by omega, ?_⟩
    simp only [State.expired_iff, h, if_false]
    cases hd : (s.phaseStep P).replacementDue P <;> simp

/-- The registers after a timeout (43_pairing R163). -/
@[simp] theorem State.timeout_toRegisters (P : Params) (s : State) :
    (s.timeout P).toRegisters = { s.toRegisters with mode := .normal, advState := .idle } := by
  simp [State.timeout]

/-- What a timeout sends. -/
theorem State.timeout_outputs (P : Params) (s : State) : s.Outputs Event.inTick (s.timeout P) := by
  have h0 : s.Outputs Event.inTick { s with mode := .normal, advState := .idle } := State.outputs_of_ports rfl
  exact (h0.trans (State.outputs_radioLogged P .stopAdv _ (fun _ => rfl) (fun _ => rfl))).trans
    (State.outputs_radioLogged P (.startScan P.scanWindow) _ (fun _ => rfl) (fun _ => rfl))

/-- The phase's bookkeeping touches no port. -/
@[simp] theorem State.phaseStep_toPorts (P : Params) (s : State) : (s.phaseStep P).toPorts = s.toPorts := by
  rcases s.phaseStep_cases P with h | ⟨_, _, h⟩ | ⟨_, _, h⟩ <;> simp only [h, State.dwellExpiry]

/-- What a pairing tick before the timeout sends. -/
theorem State.pairingTick_outputs (P : Params) (s : State) (h : s.elapsed s.pairT0 < tSession) :
    s.Outputs Event.inTickNoScan (s.pairingTick P) := by
  have h0 : s.Outputs Event.inTickNoScan (s.phaseStep P) := State.outputs_of_ports (s.phaseStep_toPorts P)
  rcases s.pairingTick_cases P with ⟨h', _⟩ | ⟨_, ⟨_, e⟩ | ⟨_, e⟩⟩
  · omega
  · rw [e]; exact h0.trans (State.replacement_outputs P _)
  · rw [e]; exact h0

/-- The state after PAIR's stop calls and queue clear, before its registers are written (43_pairing R160). -/
theorem pair_configured (P : Params) (lid gid : Half) {s : State} (h : s.configured = true) :
    pair P lid gid s = .next (((((s.radioLogged P .stopScan).radioLogged P .stopAdv).qClear).openSession P lid
      gid).respond .ok []) := by
  simp [pair, h]

/-- A tick of a configured framer during a session (42_scheduler R140). -/
theorem tick_pairing (P : Params) {s : State} (h : s.configured = true) (hm : s.mode = .pairing) :
    tick P s = .next ((s.pairingTick P).respond .ok []) := by
  simp [tick, h, hm]

/-- A tick of a configured framer in Normal mode (42_scheduler R140). -/
theorem tick_normal (P : Params) {s : State} (h : s.configured = true) (hm : s.mode = .normal) :
    tick P s = .next ((s.schedulerTick P).respond .ok []) := by
  simp [tick, h, hm]

end Sys2Proof.Machine
end

