-- ==== Sys2Proof/Laws/Exec.lean ====
section
/-! SUPPORT. Everything an operation can do to the registers, said once over all of them (`RegisterEffect`), so that an
invariant or a frame over all operations is a short case analysis. -/

namespace Sys2Proof.Machine

/-- The registers an operation that answers a next state can leave, with what is known of the case. -/
inductive RegisterEffect (i : Instr) (s : State) : Registers → Prop
  /-- Nothing is written: an operation turned away, a query, a tick in which nothing is due. -/
  | same : RegisterEffect i s s.toRegisters
  /-- A frame was generated and not enqueued. -/
  | frame (hc : s.configured = true) (hi : i.opcode ∈ [opGencmd, opSctrl, opEnqraw, opFreset]) :
      RegisterEffect i s { s.toRegisters with seq := seqSucc s.seq }
  /-- A frame of the host's was enqueued. -/
  | enqueue (frame : List Byte) (hc : s.configured = true) (hi : i = .enq frame) (hl : s.q.length < s.cap.toNat) :
      RegisterEffect i s { s.toRegisters with q := s.q ++ [⟨frame, s.now, 0⟩] }
  /-- A frame was generated and enqueued. -/
  | frameEnqueue (frame : List Byte) (hc : s.configured = true) (hi : i.opcode ∈ [opEnqraw, opFreset])
      (hl : s.q.length < s.cap.toNat) (hf : frame.length ≤ frameMax) :
      RegisterEffect i s { s.toRegisters with seq := seqSucc s.seq, q := s.q ++ [⟨frame, s.now, 0⟩] }
  /-- CLR. -/
  | clear (hc : s.configured = true) (hi : i = .clr) : RegisterEffect i s { s.toRegisters with q := [] }
  /-- A tick of the scheduler that serves no command. -/
  | schedule (a : AdvState) (t : Word32) (hc : s.configured = true) (hi : i = .tick) (hm : s.mode = .normal) :
      RegisterEffect i s { s.toRegisters with advState := a, stateT := t }
  /-- A tick of the scheduler that serves the oldest command. -/
  | serve (a : AdvState) (t : Word32) (hc : s.configured = true) (hi : i = .tick) (hm : s.mode = .normal)
      (ha : s.advState ≠ .advertising) :
      RegisterEffect i s { s.toRegisters with q := s.q.tail, advState := a, stateT := t }
  /-- The session's timeout. -/
  | timeout (hc : s.configured = true) (hi : i = .tick) (hm : s.mode = .pairing) (he : tSession ≤ s.elapsed s.pairT0) :
      RegisterEffect i s { s.toRegisters with mode := .normal, advState := .idle }
  /-- A tick of the session; one that leaves it in Discovery found it there and kept the id and PAIR_SEQ. -/
  | session (ph : PairPhase) (pt : Word32) (ci : Half) (ps : Byte) (la : Word32) (pd : Bool)
      (hc : s.configured = true) (hi : i = .tick) (hm : s.mode = .pairing)
      (hd : ph = .discovery → s.pairPhase = .discovery ∧ ci = s.curId ∧ ps = s.pairSeq) :
      RegisterEffect i s
        { s.toRegisters with pairPhase := ph, phaseT := pt, curId := ci, pairSeq := ps, lastAdvT := la, pairDirty := pd }
  /-- PAIR. -/
  | openSession (lid gid : Half) (hc : s.configured = true) (hi : i = .pair lid gid) :
      RegisterEffect i s (s.qClear.openSession Config.framer lid gid).toRegisters
  /-- SETUP. -/
  | configure (key : Bytes4) (cap intMin intMax : Half) (advDur advGap : Word32)
      (hi : i = .setup key cap intMin intMax advDur advGap) (hm : s.mode = .normal)
      (hd : cap.toNat ≤ qdepthMax Config.framer) :
      RegisterEffect i s (s.qClear.configure key cap intMin intMax advDur advGap).toRegisters

/-- An effect on registers that are equal to those named. -/
theorem RegisterEffect.of_eq {i : Instr} {s : State} {r r' : Registers} (e : RegisterEffect i s r) (h : r' = r) :
    RegisterEffect i s r' := h ▸ e

/-- A replacement writes PAIR_SEQ, LAST_ADV_T and PAIR_DIRTY at most, and PAIR_SEQ not in Discovery. -/
theorem State.replacement_effect (P : Params) (s : State) : ∃ ps la pd, (s.pairPhase = .discovery → ps = s.pairSeq) ∧
    (s.replacement P).toRegisters = { s.toRegisters with pairSeq := ps, lastAdvT := la, pairDirty := pd } := by
  rcases s.replacement_toRegisters P with h | h
  · exact ⟨_, _, _, fun _ => rfl, h⟩
  · exact ⟨_, _, _, fun hp => by simp [hp], h⟩

/-- What the phase's bookkeeping leaves of the session's registers. -/
theorem State.phaseStep_effect (P : Params) (s : State) : ∃ ph pt ci ps pd,
    (ph = .discovery → s.pairPhase = .discovery ∧ ci = s.curId ∧ ps = s.pairSeq) ∧
    (s.phaseStep P).toRegisters =
      { s.toRegisters with pairPhase := ph, phaseT := pt, curId := ci, pairSeq := ps, pairDirty := pd } := by
  rcases s.phaseStep_cases P with h | ⟨_, _, h⟩ | ⟨hp, _, h⟩
  · rw [h]; exact ⟨_, _, _, _, _, fun hd => ⟨hd, rfl, rfl⟩, rfl⟩
  · rw [h]; exact ⟨.pairing, _, _, _, _, by simp, rfl⟩
  · rw [h]; exact ⟨.pairing, _, _, _, _, by simp, by rw [← hp]⟩

/-- The registers after a tick of the session. -/
theorem pairingTick_effect {s : State} (hc : s.configured = true) (hm : s.mode = .pairing) :
    RegisterEffect .tick s (s.pairingTick Config.framer).toRegisters := by
  obtain ⟨ph, pt, ci, ps, pd, hd, hr⟩ := s.phaseStep_effect Config.framer
  rcases s.pairingTick_cases Config.framer with ⟨he, e⟩ | ⟨_, ⟨_, e⟩ | ⟨_, e⟩⟩
  · rw [e, State.timeout_toRegisters]; exact .timeout hc rfl hm he
  · obtain ⟨ps', la, pd', hp, hr'⟩ := (s.phaseStep Config.framer).replacement_effect Config.framer
    rw [e, hr', hr]
    refine .session ph pt ci ps' la pd' hc rfl hm (fun h => ?_)
    rw [hr] at hp
    exact ⟨(hd h).1, (hd h).2.1, (hp h).trans (hd h).2.2⟩
  · rw [e, hr]; exact .session ph pt ci ps s.lastAdvT pd hc rfl hm hd

/-- The registers after a tick of the scheduler. -/
theorem schedulerTick_effect {s : State} (hc : s.configured = true) (hm : s.mode = .normal) :
    RegisterEffect .tick s (s.schedulerTick Config.framer).toRegisters := by
  rcases s.schedulerTick_toRegisters Config.framer with e | ⟨_, e⟩ | ⟨ha, e | e | e⟩
  · rw [e]; exact .same
  · rw [e]; exact .schedule _ _ hc rfl hm
  · rw [e]; exact .schedule _ s.stateT hc rfl hm
  · rw [e]; exact .serve _ s.stateT hc rfl hm ha
  · rw [e]; exact .serve _ _ hc rfl hm ha

/-- Whatever an operation answers as its next state, its registers are one of `RegisterEffect`'s. -/
theorem exec_registers {i : Instr} {s t : State} (h : exec i s = .next t) : RegisterEffect i s t.toRegisters := by
  cases i with
  | setup key cap intMin intMax advDur advGap =>
    simp only [exec, execSetup, setup] at h
    split at h
    · obtain rfl := Host.Outcome.next.inj h; exact .same
    · split at h
      · obtain rfl := Host.Outcome.next.inj h; exact .same
      · obtain rfl := Host.Outcome.next.inj h
        refine (RegisterEffect.configure key cap intMin intMax advDur advGap rfl ‹_› (by omega)).of_eq ?_
        cases s.advState <;> simp [State.configure]
  | tick =>
    rcases gated_next h with ⟨_, rfl⟩ | ⟨hc, h⟩
    · exact .same
    · obtain rfl := Host.Outcome.next.inj h
      cases hm : s.mode with
      | normal => exact schedulerTick_effect hc hm
      | pairing => exact pairingTick_effect hc hm
  | gencmd ct fwd rsv tid payload =>
    rcases gated_next h with ⟨_, rfl⟩ | ⟨hc, h⟩
    · exact .same
    · split at h
      · obtain rfl := Host.Outcome.next.inj h; exact .same
      · split at h
        · obtain rfl := Host.Outcome.next.inj h; exact .same
        · obtain rfl := Host.Outcome.next.inj h; exact .frame hc (by simp [Instr.opcode])
  | sctrl tid light =>
    rcases gated_next h with ⟨_, rfl⟩ | ⟨hc, h⟩
    · exact .same
    · split at h
      · obtain rfl := Host.Outcome.next.inj h; exact .same
      · split at h
        · obtain rfl := Host.Outcome.next.inj h; exact .same
        · obtain rfl := Host.Outcome.next.inj h; exact .frame hc (by simp [Instr.opcode])
  | enq frame =>
    rcases gated_next h with ⟨_, rfl⟩ | ⟨hc, h⟩
    · exact .same
    · rcases enqBody_next h with ⟨_, rfl⟩ | ⟨hl, _, rfl⟩
      · exact .same
      · exact .enqueue frame hc rfl hl
  | enqraw ct fwd rsv tid payload =>
    rcases gated_next h with ⟨_, rfl⟩ | ⟨hc, h⟩
    · exact .same
    · split at h
      · obtain rfl := Host.Outcome.next.inj h; exact .same
      · split at h
        · obtain rfl := Host.Outcome.next.inj h; exact .same
        · rename_i hf
          rcases enqBody_next h with ⟨_, rfl⟩ | ⟨hl, _, rfl⟩
          · exact .frame hc (by simp [Instr.opcode])
          · exact .frameEnqueue _ hc (by simp [Instr.opcode]) hl (by simpa using hf)
  | clr =>
    rcases gated_next h with ⟨_, rfl⟩ | ⟨hc, h⟩
    · exact .same
    · obtain rfl := Host.Outcome.next.inj h; exact .clear hc rfl
  | qsize =>
    rcases gated_next h with ⟨_, rfl⟩ | ⟨_, h⟩
    · exact .same
    · obtain rfl := Host.Outcome.next.inj h; exact .same
  | qempty =>
    rcases gated_next h with ⟨_, rfl⟩ | ⟨_, h⟩
    · exact .same
    · obtain rfl := Host.Outcome.next.inj h; exact .same
  | pair lid gid =>
    rcases gated_next h with ⟨_, rfl⟩ | ⟨hc, h⟩
    · exact .same
    · obtain rfl := Host.Outcome.next.inj h
      exact (RegisterEffect.openSession lid gid hc rfl).of_eq (by simp [State.openSession])
  | freset lid =>
    rcases gated_next h with ⟨_, rfl⟩ | ⟨hc, h⟩
    · exact .same
    · split at h
      · obtain rfl := Host.Outcome.next.inj h; exact .same
      · rename_i hf
        rcases enqBody_next h with ⟨_, rfl⟩ | ⟨hl, _, rfl⟩
        · exact .frame hc (by simp [Instr.opcode])
        · exact .frameEnqueue _ hc (by simp [Instr.opcode]) hl (by simpa using hf)

end Sys2Proof.Machine
end

