-- ==== Sys2Proof/Laws/Pairing.lean ====
section
/-! SUPPORT. The computed tests of a pairing frame say what the terms of Safety.lean say: `pairingLegal` is the length
bound, `SpellsKey` and the trailer. -/

namespace Sys2Proof.Machine

theorem isHexDigit_iff (d : BitVec 4) (c : Byte) : isHexDigit d c = true ↔ ∃ u, c = hexChar u d := by
  simp only [isHexDigit, Bool.or_eq_true, beq_iff_eq]
  exact ⟨fun h => h.elim (⟨true, ·⟩) (⟨false, ·⟩), fun ⟨u, h⟩ => by cases u; exacts [.inr h, .inl h]⟩

theorem isHexByte_iff (b c d : Byte) : isHexByte b c d = true ↔ HexSpelling b [c, d] := by
  simp [isHexByte, isHexDigit_iff, HexSpelling]

/-- The packet spells the bytes of the list in this order, with anything before, between and after them. -/
def SpellsInOrder : List Byte → List Byte → Prop
  | _, [] => True
  | out, b :: bs => ∃ g w rest, HexSpelling b w ∧ out = g ++ w ++ rest ∧ SpellsInOrder rest bs

theorem SpellsInOrder.cons_left (c : Byte) {out ks : List Byte} (h : SpellsInOrder out ks) :
    SpellsInOrder (c :: out) ks := by
  cases ks with
  | nil => trivial
  | cons b bs => obtain ⟨g, w, rest, hw, rfl, hs⟩ := h; exact ⟨c :: g, w, rest, hw, by simp, hs⟩

theorem spells_cons_eq_true (c d : Byte) (rest : List Byte) (k : Byte) (ks : List Byte) :
    spells (c :: d :: rest) (k :: ks) = true ↔
      (∃ b ∈ k :: ks, isHexByte b c d = true ∧ spells rest ((k :: ks).erase b) = true) ∨
        spells (d :: rest) (k :: ks) = true := by
  rw [spells]; simp only [Bool.or_eq_true, List.any_eq_true, Bool.and_eq_true]

/-- What `spells` finds, in the order in which it finds it. -/
theorem exists_spellsInOrder_of_spells (out ks : List Byte) (h : spells out ks = true) :
    ∃ ks', ks'.Perm ks ∧ SpellsInOrder out ks' := by
  induction out, ks using spells.induct with
  | case1 => exact ⟨[], .refl _, by simp [SpellsInOrder]⟩
  | case2 c d rest k ks ih1 ih2 =>
    rcases (spells_cons_eq_true ..).1 h with ⟨b, hb, h1, h2⟩ | h
    · obtain ⟨ks', hp, hs⟩ := ih1 b h2
      exact ⟨b :: ks', (hp.cons b).trans (List.perm_cons_erase hb).symm, [], [c, d], rest, (isHexByte_iff ..).1 h1,
        rfl, hs⟩
    · obtain ⟨ks', hp, hs⟩ := ih2 h
      exact ⟨ks', hp, hs.cons_left c⟩
  | case3 => simp [spells] at h
  | case4 => simp [spells] at h

theorem spells_cons_left (c : Byte) {out ks : List Byte} (h : spells out ks = true) : spells (c :: out) ks = true := by
  match out, ks with
  | _, [] => simp [spells]
  | [], _ :: _ => simp [spells] at h
  | _ :: _, _ :: _ => exact (spells_cons_eq_true ..).2 (.inr h)

theorem spells_perm {out ks ks' : List Byte} (hp : ks'.Perm ks) (h : spells out ks = true) :
    spells out ks' = true := by
  induction out, ks using spells.induct generalizing ks' with
  | case1 => rw [List.perm_nil.1 hp]; simp [spells]
  | case2 c d rest k ks ih1 ih2 =>
    cases ks' with
    | nil => simp at hp
    | cons a as =>
      refine (spells_cons_eq_true ..).2 (((spells_cons_eq_true ..).1 h).imp ?_ (ih2 hp))
      exact fun ⟨b, hb, h1, h2⟩ => ⟨b, hp.symm.subset hb, h1, ih1 b (hp.erase b) h2⟩
  | case3 => simp [spells] at h
  | case4 => simp [spells] at h

theorem spells_of_spellsInOrder {ks out : List Byte} (h : SpellsInOrder out ks) : spells out ks = true := by
  induction ks generalizing out with
  | nil => simp [spells]
  | cons b bs ih =>
    obtain ⟨g, w, rest, ⟨u, v, rfl⟩, rfl, hs⟩ := h
    induction g with
    | nil =>
      exact (spells_cons_eq_true ..).2
        (.inl ⟨b, by simp, (isHexByte_iff ..).2 ⟨u, v, rfl⟩, by simpa using ih hs⟩)
    | cons c g ihg => exact spells_cons_left c ihg

/-- The computed test of R182 is R182. -/
theorem spells_toList_iff (key : Bytes4) (out : List Byte) :
    spells out (Bytes4.toList key) = true ↔ SpellsKey key out := by
  constructor
  · intro h
    obtain ⟨ks, hp, hs⟩ := exists_spellsInOrder_of_spells _ _ h
    match ks, hp.length_eq with
    | [a, b, c, d], _ =>
      obtain ⟨g0, wa, _, ha, rfl, g1, wb, _, hb, rfl, g2, wc, _, hc, rfl, g3, wd, g4, hd, rfl, _⟩ := hs
      exact ⟨a, b, c, d, wa, wb, wc, wd, g0, g1, g2, g3, g4, hp, ha, hb, hc, hd, by simp only [List.append_assoc]⟩
  · rintro ⟨a, b, c, d, wa, wb, wc, wd, g0, g1, g2, g3, g4, hp, ha, hb, hc, hd, rfl⟩
    refine spells_perm hp.symm (spells_of_spellsInOrder ?_)
    exact ⟨g0, wa, g1 ++ wb ++ g2 ++ wc ++ g3 ++ wd ++ g4, ha, by simp only [List.append_assoc],
      g1, wb, g2 ++ wc ++ g3 ++ wd ++ g4, hb, by simp only [List.append_assoc],
      g2, wc, g3 ++ wd ++ g4, hc, by simp only [List.append_assoc],
      g3, wd, g4, hd, rfl, trivial⟩

theorem endsInTrailer_iff (P : Params) (out : List Byte) :
    endsInTrailer P out = true ↔ ∃ head, out = head ++ pairTrailer P head := by
  simp only [endsInTrailer, List.any_eq_true, List.mem_range, beq_iff_eq]
  refine ⟨fun ⟨_, _, h⟩ => ⟨_, h⟩, fun ⟨head, h⟩ => ⟨head.length, by simp [h], ?_⟩⟩
  have : out.take head.length = head := by simp [h]
  rw [this]; exact h

/-- All that the spec states of an output of PAIRING_FRAME, in the terms of Safety.lean. -/
theorem pairingLegal_iff (P : Params) (key : Bytes4) (out : List Byte) :
    pairingLegal P key out = true ↔
      out.length ≤ 31 ∧ SpellsKey key out ∧ ∃ head, out = head ++ pairTrailer P head := by
  rw [pairingLegal, Bool.and_eq_true, Bool.and_eq_true, decide_eq_true_iff, spells_toList_iff, endsInTrailer_iff,
    and_assoc, advLimit]

end Sys2Proof.Machine
end

