-- ==== Sys2Proof/Laws/PerInstr.lean ====
section
/-! SUPPORT. The family `EncodedForm`, one lemma per constructor of `Instr`: the encoding of an operation that a format
can spell is one byte sequence that begins with its opcode, one of the opcode map, and has the length its format and its
own length byte require (30_encoding R68 to R78, R81). -/

namespace Sys2Proof.Laws.EncodedForm

/-- The encoding of `i` has the form its format gives it. -/
def Statement (i : Instr) : Prop :=
  i.WellFormed → (encode i).head? = some i.opcode ∧ i.opcode ∈ opcodes ∧
    (encode i).length = opLength i.opcode (fun k => (encode i).getD k 0)

/-- A length byte spells the length of a well-formed operand. -/
theorem lengthByte {i : Instr} (h : i.WellFormed) : (BitVec.ofNat 8 i.tail.length).toNat = i.tail.length := by
  have : i.tail.length ≤ 255 := by simpa [Instr.WellFormed, Instr.wellFormed] using h
  simp only [BitVec.toNat_ofNat]
  omega

theorem setup (key : Bytes4) (cap intMin intMax : Half) (advDur advGap : Word32) :
    Statement (.setup key cap intMin intMax advDur advGap) :=
  fun _ => ⟨rfl, by simp [Instr.opcode, opcodes], rfl⟩

theorem tick : Statement .tick := fun _ => ⟨rfl, by decide, rfl⟩

theorem gencmd (ct : BitVec 3) (fwd : Bool) (rsv : BitVec 4) (tid : Half) (payload : List Byte) :
    Statement (.gencmd ct fwd rsv tid payload) := fun h => by
  have hn := lengthByte h
  refine ⟨rfl, by simp [Instr.opcode, opcodes], ?_⟩
  show (encode (.gencmd ct fwd rsv tid payload)).length = 5 + (BitVec.ofNat 8 payload.length).toNat
  rw [show (BitVec.ofNat 8 payload.length).toNat = payload.length from hn]
  simp only [encode, Instr.operandBytes, le16Bytes, List.length_cons, List.length_append, List.length_nil]
  omega

theorem sctrl (tid : Half) (light : List Byte) : Statement (.sctrl tid light) := fun h => by
  have hn := lengthByte h
  refine ⟨rfl, by simp [Instr.opcode, opcodes], ?_⟩
  show (encode (.sctrl tid light)).length = 4 + (BitVec.ofNat 8 light.length).toNat
  rw [show (BitVec.ofNat 8 light.length).toNat = light.length from hn]
  simp only [encode, Instr.operandBytes, le16Bytes, List.length_cons, List.length_append, List.length_nil]
  omega

theorem enq (frame : List Byte) : Statement (.enq frame) := fun h => by
  have hn := lengthByte h
  refine ⟨rfl, by simp [Instr.opcode, opcodes], ?_⟩
  show (encode (.enq frame)).length = 2 + (BitVec.ofNat 8 frame.length).toNat
  rw [show (BitVec.ofNat 8 frame.length).toNat = frame.length from hn]
  simp only [encode, Instr.operandBytes, List.length_cons, List.length_append, List.length_nil]
  omega

theorem enqraw (ct : BitVec 3) (fwd : Bool) (rsv : BitVec 4) (tid : Half) (payload : List Byte) :
    Statement (.enqraw ct fwd rsv tid payload) := fun h => by
  have hn := lengthByte h
  refine ⟨rfl, by simp [Instr.opcode, opcodes], ?_⟩
  show (encode (.enqraw ct fwd rsv tid payload)).length = 5 + (BitVec.ofNat 8 payload.length).toNat
  rw [show (BitVec.ofNat 8 payload.length).toNat = payload.length from hn]
  simp only [encode, Instr.operandBytes, le16Bytes, List.length_cons, List.length_append, List.length_nil]
  omega

theorem clr : Statement .clr := fun _ => ⟨rfl, by decide, rfl⟩

theorem qsize : Statement .qsize := fun _ => ⟨rfl, by decide, rfl⟩

theorem qempty : Statement .qempty := fun _ => ⟨rfl, by decide, rfl⟩

theorem pair (lid gid : Half) : Statement (.pair lid gid) := fun _ => ⟨rfl, by simp [Instr.opcode, opcodes], rfl⟩

theorem freset (lid : Half) : Statement (.freset lid) := fun _ => ⟨rfl, by simp [Instr.opcode, opcodes], rfl⟩

end Sys2Proof.Laws.EncodedForm
end

