-- ==== Sys2Proof/Tests/Slice0.lean ====
section
/-! SUPPORT. Tests against the vectors of 95_test_vectors (V numbers), computed by the spec's own script from its rules,
and a witness for the hypotheses of every obligation that has any. -/

namespace Sys2Proof.Tests

open Sys2Proof Sys2Proof.Machine

/-! ### The test instance and the states the tests start from -/

/-- T1 (V300). What V300 leaves symbolic has a recognisable value here: a session starts PAIR_SEQ at 0x20, a slot at
0x40, a step adds one, DISCOVERY_FRAME is one byte D1, PAIR_CHECK one byte CC, and PAIRING_FRAME the light id, PAIR_SEQ,
the key's digits, the trailer. -/
def T1 : Params where
  hdrKs := ⟨0x11, 0x22, 0x33, 0x44⟩
  preamble := #v[0xF0, 0xF1, 0xF2, 0xF3, 0xF4, 0xF5]
  mfrId := 0x1234
  advFlags := 0x06
  hdr2KeyIndex := 3
  rfLen k := 6 + k
  rfByte pre body k := (pre.toList ++ body).getD k 0
  qdepthExtra := 0
  tReplace := 100
  pairSeqDerive _ _ := 0x20
  pairSeqInit := 0x40
  pairSeqStep v := v + 1
  discoveryRaw _ _ _ := [0xD1]
  pairingRaw key lid _ pseq := [hiByte lid, loByte lid, pseq] ++ keyDigits key ++ [0xCC]
  pairCheck _ := [0xCC]
  advTypeNonconn := 1
  advAddrType := 2
  advChannelMap := 3
  advFilterPolicy := 4
  pairIntMin := 5
  pairIntMax := 6
  scanWindow := 7
  radioCode _ := 0

/-- The state of a next outcome. -/
def nextOf : Result → Option State
  | .next s => some s
  | .fault _ => none
  | .refused _ => none

/-- One field of the state after an operation. -/
def after {α : Type} (r : Result) (f : State → α) : Option α := (nextOf r).map f

/-- V320's configured state. -/
def conf : State :=
  { State.reset with
    configured := true, meshKey := ⟨0xA1, 0xB2, 0xC3, 0xD4⟩, advIntMin := 32, advIntMax := 64, advDur := 50
    advGap := 10 }

/-- A queue entry holding one byte. -/
def entry (b : Byte) : Command := ⟨[b], 0, 0⟩

/-- V319's state at NOW = t: a session from 1000, base id 100, group 1, in Discovery. -/
def sess (t : Word32) : State :=
  { conf with
    mode := .pairing, pairT0 := 1000, phaseT := 1000, lastAdvT := 1000, baseId := 100, curId := 100, groupId := 1
    pairSeqStart := 0x20, pairSeq := 0x20, pairDirty := true, now := t }

/-- V319's state in the Pairing phase, entered at 5000, nothing owed. -/
def sess2 (t : Word32) : State :=
  { sess t with pairPhase := .pairing, phaseT := 5000, lastAdvT := 5000, pairDirty := false }

/-! ### WellFormed refuses what the length byte cannot spell (30_encoding R71 to R73) -/

theorem test_wf_refuses_long_gencmd : (Instr.gencmd 0 false 0 0 (List.replicate 256 0)).wellFormed = false := by
  decide +kernel
theorem test_wf_refuses_long_sctrl : (Instr.sctrl 0 (List.replicate 256 0)).wellFormed = false := by decide +kernel
theorem test_wf_refuses_long_enq : (Instr.enq (List.replicate 256 0)).wellFormed = false := by decide +kernel
theorem test_wf_refuses_long_enqraw : (Instr.enqraw 0 false 0 0 (List.replicate 256 0)).wellFormed = false := by
  decide +kernel
theorem test_wf_admits_255 : (Instr.enq (List.replicate 255 0)).wellFormed = true := by decide +kernel

/-! ### Decoding: byte sequences written out from 30_encoding and 95_test_vectors -/

/-- V320 row 1. -/
theorem test_decode_setup : decode [0x01, 0xA1, 0xB2, 0xC3, 0xD4, 0x64, 0x00, 0x20, 0x00, 0x40, 0x00, 0x32, 0x00, 0x00,
    0x00, 0x0A, 0x00, 0x00, 0x00] = some (.setup ⟨0xA1, 0xB2, 0xC3, 0xD4⟩ 100 32 64 50 10) := by decide

/-- Every operand byte of SETUP distinct (30_encoding R70, 20_memory R46). -/
theorem test_decode_setup_bytes : decode [0x01, 0x11, 0x12, 0x13, 0x14, 0x21, 0x22, 0x31, 0x32, 0x41, 0x42, 0x51, 0x52,
    0x53, 0x54, 0x61, 0x62, 0x63, 0x64] =
    some (.setup ⟨0x11, 0x12, 0x13, 0x14⟩ 0x2221 0x3231 0x4241 0x54535251 0x64636261) := by decide

theorem test_decode_tick : decode [0x02] = some .tick := by decide

/-- V313 rows 1 and 2: gflags 0D is ct 5 with forward; 1D has reserved bit 4 set. -/
theorem test_decode_gencmd : decode [0x10, 0x0D, 0x2A, 0x01, 0x02, 0xAA, 0xBB] =
    some (.gencmd 5 true 0 0x012A [0xAA, 0xBB]) ∧
    decode [0x10, 0x1D, 0x2A, 0x01, 0x02, 0xAA, 0xBB] = some (.gencmd 5 true 1 0x012A [0xAA, 0xBB]) := by decide

/-- V315 row 1. -/
theorem test_decode_sctrl : decode [0x11, 0x2A, 0x00, 0x06, 0xFF, 0x00, 0xFF, 0x00, 0x00, 0x00] =
    some (.sctrl 42 [0xFF, 0x00, 0xFF, 0x00, 0x00, 0x00]) := by decide

/-- V317: a one-byte frame, and the empty frame. -/
theorem test_decode_enq : decode [0x20, 0x01, 0x03] = some (.enq [0x03]) ∧ decode [0x20, 0x00] = some (.enq []) := by
  decide

/-- V320. -/
theorem test_decode_enqraw : decode [0x21, 0x0D, 0x2A, 0x00, 0x07, 0, 0, 0, 0, 0, 0, 0] =
    some (.enqraw 5 true 0 42 [0, 0, 0, 0, 0, 0, 0]) := by decide

theorem test_decode_clr : decode [0x22] = some .clr := by decide
theorem test_decode_qsize : decode [0x23] = some .qsize := by decide
theorem test_decode_qempty : decode [0x24] = some .qempty := by decide

/-- V319, and both operands with distinct bytes. -/
theorem test_decode_pair : decode [0x30, 0x64, 0x00, 0x01, 0x00] = some (.pair 100 1) ∧
    decode [0x30, 0x11, 0x22, 0x33, 0x44] = some (.pair 0x2211 0x4433) := by decide

/-- V309. -/
theorem test_decode_freset : decode [0x31, 0x2A, 0x01] = some (.freset 0x012A) := by decide

/-- V313 row 3, V320: a payload byte short, TICK with a surplus byte, PAIR one byte short, reserved opcodes. -/
theorem test_decode_rejects : decodeOp 0x10 [0x0D, 0x2A, 0x01, 0x02, 0xAA] = .badLength 0x10 ∧
    decodeOp 0x02 [0x00] = .badLength 0x02 ∧ decodeOp 0x30 [0x64, 0x00, 0x01] = .badLength 0x30 ∧
    decodeOp 0x00 [] = .illegalOp 0x00 ∧ decodeOp 0xFF [0x01, 0x02] = .illegalOp 0xFF := by decide

/-- Table rows numbered from the least significant bit of byte 0, operand bytes above the given bits zero. -/
theorem test_table_word : decodeTableWord 8 0x02 = some .tick ∧ decodeTableWord 24 0x002A31 = some (.freset 42) ∧
    decodeTableWord 8 0x10 = some (.gencmd 0 false 0 0 []) ∧ decodeTableWord 16 0x0220 = some (.enq [0, 0]) ∧
    decodeTableWord 8 0x00 = none := by decide

/-- The word presented is the next one the step takes; before SETUP it is turned away (V320). -/
theorem test_fetch_word :
    after (step (State.reset.withFetchWord 8 0x02)) (·.trace) =
      some [.warn (.notConfigured 0x02), .rsp ⟨.notConfigured, []⟩] := by decide

/-! ### SETUP (V320, V335) -/

/-- V320 row 1. -/
theorem test_setup_loads :
    after (setup T1 ⟨0xA1, 0xB2, 0xC3, 0xD4⟩ 100 32 64 50 10 State.reset) (fun t =>
      (t.meshKey, t.cap, t.configured, t.seq)) = some (⟨0xA1, 0xB2, 0xC3, 0xD4⟩, 100, true, 1) ∧
    after (setup T1 ⟨0xA1, 0xB2, 0xC3, 0xD4⟩ 100 32 64 50 10 State.reset) (fun t =>
      (t.advIntMin, t.advIntMax, t.advDur, t.advGap)) = some (32, 64, 50, 10) := by decide

/-- V320: cap = 101 with QDEPTH_MAX = 100 is refused; V335: SETUP stops a running advertisement and empties Q. -/
theorem test_setup_cap_and_stop :
    after (setup T1 ⟨0xA1, 0xB2, 0xC3, 0xD4⟩ 101 32 64 50 10 conf) (fun t => (t.trace, t.cap)) =
      some ([.warn (.badOperand 0x01), .rsp ⟨.badOperand, []⟩], 100) ∧
    after (setup T1 ⟨1, 2, 3, 4⟩ 5 32 64 0 0 { conf with advState := .advertising, q := [entry 2], radioIn := [0] })
      (fun t => (t.trace, t.q, t.advState)) =
      some ([.radio .stopAdv 0, .rsp ⟨.ok, []⟩], [], .idle) := by decide

/-! ### PacketCodec (V304, V310 to V316) -/

/-- V310. -/
theorem test_seqnext : seqSucc 1 = 2 ∧ seqSucc 253 = 254 ∧ seqSucc 254 = 1 := by decide

/-- V311. -/
theorem test_hdr0 : hdr0 5 0x012A true = 0xD1 ∧ hdr0 0 0xFFFF false = 0x0F ∧ hdr0 7 0x0F00 true = 0xFF ∧
    hdr0 5 0x0300 false = 0x53 ∧ hdr0 5 0xF0FF true = 0xD0 ∧ hdr0 0 0 false = 0x00 := by decide

/-- V312 rows 1, 3 and 6, plain body and encrypted body. -/
theorem test_genbody :
    plainBody T1 conf.meshKey 1 5 0x012A [0xAA, 0xBB] true = [0xD1, 0x01, 0xD4, 0x0B, 0xAA, 0xBB] ∧
    (conf.genBody T1 5 0x012A [0xAA, 0xBB] true).1 = [0xC0, 0x23, 0xE7, 0x4F, 0x0B, 0x09] ∧
    (conf.genBody T1 7 0x0F00 [1, 2, 3, 4, 5] true).1 = [0xEE, 0x23, 0xE7, 0xA7, 0xA0, 0xB0, 0xC0, 0xD0, 0xA4] ∧
    (({ conf with seq := 254 } : State).genBody T1 7 0x0FFF (List.replicate 16 0xFF) true).1.take 8 =
      [0xEE, 0xDC, 0xE7, 0x85, 0x5E, 0x4D, 0x3C, 0x2B] := by decide

/-- V314, L = 0, 6 and 8. -/
theorem test_inner : innerStructure 0x1234 [] = [0x12, 0x34, 0, 0, 0, 0, 0, 0, 0, 0, 0, 0] ∧
    innerStructure 0x1234 [1, 2, 3, 4, 5, 6] = [0x72, 0x34, 1, 2, 3, 4, 5, 6, 0, 0, 0, 0] ∧
    innerStructure 0x1234 [1, 2, 3, 4, 5, 6, 7, 8] = [0x92, 0x34, 1, 2, 3, 4, 5, 6, 7, 8, 0, 0] := by decide

/-- V316: one byte, and the cut at 24 bytes of frame. -/
theorem test_adwrap : adWrap T1 [0xAA] = [0x02, 0x01, 0x06, 0x04, 0xFF, 0x34, 0x12, 0xAA] ∧
    (adWrap T1 (List.replicate 30 0x40)).length = 31 ∧ (adWrap T1 (List.replicate 30 0x40))[3]? = some 0x1B := by decide

/-- V313 row 1. -/
theorem test_gencmd_frame :
    after (gencmd T1 5 true 0 0x012A [0xAA, 0xBB] { conf with seq := 7 }) (fun t => (t.trace, t.seq)) =
      some ([.rsp ⟨.ok, [0x0C, 0xF0, 0xF1, 0xF2, 0xF3, 0xF4, 0xF5, 0xC0, 0x25, 0xE7, 0x55, 0x0B, 0x09]⟩], 8) := by
  decide

/-- V313 rows 2 and 4. -/
theorem test_gencmd_refused :
    after (gencmd T1 5 true 1 0x012A [0xAA, 0xBB] { conf with seq := 7 }) (fun t => (t.trace, t.seq)) =
      some ([.warn (.badOperand 0x10), .rsp ⟨.badOperand, []⟩], 7) ∧
    after (gencmd T1 5 true 0 0x012A (List.replicate 246 0) { conf with seq := 7 }) (fun t => (t.trace, t.seq)) =
      some ([.warn (.badOperand 0x10), .rsp ⟨.badOperand, []⟩], 7) := by decide +kernel

/-- V315 row 1. -/
theorem test_sctrl_frame :
    after (sctrl T1 42 [0xFF, 0x00, 0xFF, 0x00, 0x00, 0x00] conf) (fun t => (t.trace, t.seq)) =
      some ([.rsp ⟨.ok, [0x16, 0xF0, 0xF1, 0xF2, 0xF3, 0xF4, 0xF5, 0xC1, 0x23, 0xE7, 0x7B, 0xD3, 0x98, 0x3C, 0xD4, 0x5E,
        0xB2, 0xC3, 0xD4, 0xA1, 0xB2, 0xC3, 0xD4]⟩], 2) := by decide

/-- V315 row 4. -/
theorem test_sctrl_oversized :
    after (sctrl T1 42 (List.replicate 9 0) { conf with seq := 5 }) (fun t => (t.trace, t.seq)) =
      some ([.warn (.oversizedPayload 9), .rsp ⟨.oversized, []⟩], 5) := by decide

/-! ### CommandQueue (V317) -/

theorem test_enq_appends :
    after (enq T1 [0x02] { conf with cap := 2, q := [entry 1], now := 9 }) (fun t => (t.q, t.trace)) =
      some ([entry 1, ⟨[0x02], 9, 0⟩], [.rsp ⟨.ok, []⟩]) := by decide

theorem test_enq_full :
    after (enq T1 [0x03] { conf with cap := 2, q := [entry 1, entry 2] }) (fun t => (t.q, t.trace)) =
      some ([entry 1, entry 2], [.warn (.queueFull 2 2), .rsp ⟨.queueFull, []⟩]) := by decide

theorem test_clr : after (exec .clr { conf with q := [entry 1, entry 2] }) (fun t => (t.q, t.trace)) =
    some ([], [.rsp ⟨.ok, []⟩]) := by decide

theorem test_qsize : after (exec .qsize { conf with q := [entry 1, entry 2] }) (·.trace) =
    some [.rsp ⟨.ok, [0x02, 0x00]⟩] := by decide

theorem test_qempty : after (exec .qempty { conf with q := [entry 1, entry 2] }) (·.trace) =
    some [.rsp ⟨.ok, [0x00]⟩] ∧ after (exec .qempty conf) (·.trace) = some [.rsp ⟨.ok, [0x01]⟩] := by decide

/-! ### ENQRAW and FRESET (V309, V320) -/

/-- V320. -/
theorem test_enqraw :
    after (enqraw T1 5 true 0 42 [0, 0, 0, 0, 0, 0, 0] { conf with seq := 3 }) (fun t =>
      (t.q.map Command.frame, t.seq)) =
      some ([[0xF0, 0xF1, 0xF2, 0xF3, 0xF4, 0xF5, 0xC1, 0x21, 0xE7, 0xE3, 0xA1, 0xB2, 0xC3, 0xD4, 0xA1, 0xB2, 0xC3]],
        4) := by decide

/-- V309 with light id 0x012A. -/
theorem test_freset :
    after (freset T1 0x012A { conf with seq := 3 }) (fun t => (t.q.map Command.frame, t.seq)) =
      some ([[0xF0, 0xF1, 0xF2, 0xF3, 0xF4, 0xF5, 0xC0, 0x21, 0xE7, 0xEC, 0xA1, 0xB2, 0xC3, 0xD4, 0xA1, 0xB2, 0xC3]],
        4) := by decide

/-- V320: the rejected frame consumes a sequence number. -/
theorem test_freset_full :
    after (freset T1 42 { conf with cap := 1, q := [entry 1] }) (fun t => (t.q, t.seq, t.trace)) =
      some ([entry 1], 2, [.warn (.queueFull 1 1), .rsp ⟨.queueFull, []⟩]) := by decide

/-! ### TICK and PAIR (V318, V319) -/

/-- V318 rows 2 and 4. -/
theorem test_tick_idle :
    after (tick T1 { conf with q := [entry 0xAA, entry 0xBB], now := 1000, radioIn := [0, 0] }) (fun t =>
      (t.advState, t.stateT, t.q, t.trace)) =
      some (.advertising, 1000, [entry 0xBB],
        [.radio (.cfgAdvData [0x02, 0x01, 0x06, 0x04, 0xFF, 0x34, 0x12, 0xAA]) 0,
         .radio (.startAdv ⟨32, 64, 1, 2, 3, 4⟩) 0, .rsp ⟨.ok, []⟩]) ∧
    after (tick T1 { conf with q := [entry 0xAA, entry 0xBB], now := 1000, radioIn := [0, 7] }) (fun t =>
      (t.advState, t.q, t.trace.drop 1)) =
      some (.idle, [entry 0xBB],
        [.radio (.startAdv ⟨32, 64, 1, 2, 3, 4⟩) 7, .warn (.radioStartFailure 7), .rsp ⟨.ok, []⟩]) := by decide

/-- V319: the dwell expires, and the timeout with two failing calls. -/
theorem test_tick_session :
    after (tick T1 { sess 5000 with radioIn := [0, 0, 0] }) (fun t =>
      (t.pairPhase, t.phaseT, t.curId, t.pairSeq, t.trace[1]?)) =
      some (.pairing, 5000, 100, 0x21, some (.radio (.cfgAdvData ([0x00, 0x64, 0x20,
        0x41, 0x31, 0x42, 0x32, 0x43, 0x33, 0x44, 0x34, 0xCC])) 0)) ∧
    after (tick T1 { sess2 61000 with radioIn := [1, 8] }) (fun t => (t.mode, t.advState, t.trace)) =
      some (.normal, .idle, [.radio .stopAdv 1, .warn (.radioOtherFailure .stopAdv 1), .radio (.startScan 7) 8,
        .warn (.radioOtherFailure .startScan 8), .rsp ⟨.ok, []⟩]) := by decide

/-- V319 row 10: the slot id wraps at 16 bits. -/
theorem test_slot_wraps : ({ sess2 10000 with baseId := 0xFFFF } : State).slotId = 0 := by decide

/-- V335: PAIR @40 with STOP_SCAN failing. -/
theorem test_pair :
    after (pair T1 65535 0 { conf with now := 40, q := [entry 1], advState := .gap, radioIn := [2, 0] }) (fun t =>
      (t.mode, t.curId, t.pairT0, t.trace)) =
      some (.pairing, 65535, 40,
        [.radio .stopScan 2, .warn (.radioOtherFailure .stopScan 2), .radio .stopAdv 0, .rsp ⟨.ok, []⟩]) := by decide

/-! ### Time and the light mapper (V321, V322) -/

theorem test_elapsed : ({ conf with now := 0x12 } : State).elapsed 0xFFFFFFE0 = 50 ∧
    ({ conf with now := 999 } : State).elapsed 1000 = 0xFFFFFFFF := by decide

/-- A light that is on at full brightness, no mode bit set, every channel 0. -/
def lamp : LightState := ⟨true, false, false, false, false, 1, 0, 0, 0, 0, 0, 0⟩

theorem test_light_rgb : lightPayload { lamp with rgb := true, red := 1 } = [0xFF, 0x00, 0xFF, 0x00, 0x00, 0x00] := by
  decide +kernel

theorem test_light_all :
    lightPayload { lamp with rgb := true, coldWarmWhite := true, brightness := 1/4, red := 1/2, green := 1/4, blue := 1
                             warm := 1/10, cold := 9/10 } = [0x9F, 0xFF, 0x7F, 0x3F, 0x19, 0xE5] := by
  decide +kernel

theorem test_light_temperature :
    lightPayload { lamp with colorTemperature := true, mireds := 250 } = [0xFF, 0x00, 0x00, 0x00, 0xB7, 0x47] := by
  decide +kernel

theorem test_light_white :
    lightPayload { lamp with white := true, brightness := 1/2 } = [0xBF] ∧
    lightPayload { lamp with white := true, rgb := true, brightness := 0 } = [0x80] := by
  decide +kernel

/-! ### Witnesses: a concrete state and operands for the hypotheses of each obligation, every clause of it -/

/-- One entry in a queue of two. -/
def half : State := { conf with cap := 2, q := [entry 1] }

/-- A full queue of two. -/
def full : State := { conf with cap := 2, q := [entry 1, entry 2] }

theorem witness_DecodeInvertsEncode : (Instr.enq (List.replicate 255 0)).WellFormed ∧
    (Instr.gencmd 7 true 15 0xFFFF []).WellFormed := by decide +kernel

theorem witness_EncodeInvertsDecode : decode [0x20, 0x01, 0xFF] = some (.enq [0xFF]) := by decide

/-- The ends of each range of reserved opcodes. -/
theorem witness_ReservedOpcodeAnswersIllegalOp :
    (∀ op ∈ [(0x00 : Byte), 0x03, 0x0F, 0x12, 0x1F, 0x25, 0x2F, 0x32, 0xFF],
      (op.toNat = 0x00 ∨ (0x03 ≤ op.toNat ∧ op.toNat ≤ 0x0F) ∨ (0x12 ≤ op.toNat ∧ op.toNat ≤ 0x1F) ∨
      (0x25 ≤ op.toNat ∧ op.toNat ≤ 0x2F) ∨ 0x32 ≤ op.toNat)) ∧
    ({ conf with pending := [.op 0xFF [0x01] 5] } : State).pending = .op 0xFF [0x01] 5 :: [] := by decide

/-- One byte too few, one too many, and exactly enough. -/
theorem witness_LengthDecidesTheOperation : (0x20 : Byte) ∈ opcodes ∧
    [(0x20 : Byte), 0x01].length ≠ opLength 0x20 (fun k => [(0x20 : Byte), 0x01].getD k 0) ∧
    [(0x20 : Byte), 0x00, 0xFF].length ≠ opLength 0x20 (fun k => [(0x20 : Byte), 0x00, 0xFF].getD k 0) ∧
    [(0x20 : Byte), 0x01, 0xFF].length = opLength 0x20 (fun k => [(0x20 : Byte), 0x01, 0xFF].getD k 0) ∧
    ({ conf with pending := [.op 0x20 [0x01] 5] } : State).pending = .op 0x20 [0x01] 5 :: [] := by decide

theorem witness_StepRunsTheDecodedOperation :
    ({ conf with pending := [.op 0x20 [0x01, 0xFF] 5] } : State).pending = .op 0x20 [0x01, 0xFF] 5 :: [] ∧
    decode [0x20, 0x01, 0xFF] = some (.enq [0xFF]) ∧ (Instr.enq [0xFF]).WellFormed ∧ conf.pending = [] := by decide

theorem witness_ResetInputRestoresTheResetTable :
    ({ conf with pending := [.reset, .op 0x02 [] 1] } : State).pending = .reset :: [.op 0x02 [] 1] := by decide

theorem witness_UnconfiguredFramerTurnsOperationsAway : Instr.tick.opcode ≠ 0x01 ∧ State.reset.configured = false := by
  decide

theorem witness_RadioCallDrawsOneCode : ({ conf with radioIn := [3, 0] } : State).radioIn = 3 :: [0] ∧
    conf.radioIn = [] := by decide

/-- At the depth every framer has, from Idle and from Advertising. -/
theorem witness_SetupLoadsTheConfiguration : conf.mode = .normal ∧ (100 : Half).toNat ≤ qdepthMax Config.framer ∧
    conf.advState ≠ .advertising ∧ ({ conf with advState := .advertising, radioIn := [3] } : State).advState =
      .advertising ∧ ({ conf with advState := .advertising, radioIn := [3] } : State).radioIn = 3 :: [] :=
  ⟨by decide, Nat.le_add_left _ _, by decide, by decide, by decide⟩

/-- The first capacity above T1's depth. -/
theorem witness_SetupIsTurnedAway : (sess 1000).mode = .pairing ∧ conf.mode = .normal ∧
    qdepthMax T1 < (101 : Half).toNat := by decide

theorem witness_SequenceCyclesThrough254Values : conf.seq = 1 := by decide

/-- The last header byte and the first payload byte. -/
theorem witness_CipherXorsEachByteWithItsKeystream : 3 ≤ 3 ∧ [(1 : Byte), 2, 3, 4, 5][3]? = some 4 ∧ 3 < 4 ∧
    [(1 : Byte), 2, 3, 4, 5][4]? = some 5 := by decide

/-- Both ends of the sequence counter's range. -/
theorem witness_GeneratedBodyDecrypts : 1 ≤ conf.seq.toNat ∧ conf.seq.toNat ≤ 254 ∧
    1 ≤ ({ conf with seq := 254 } : State).seq.toNat ∧ ({ conf with seq := 254 } : State).seq.toNat ≤ 254 ∧
    [(9 : Byte)][0]? = some 9 := by decide

/-- The longest light payload, its last byte, and the padding's first and last place. -/
theorem witness_InnerStructureLayout : (List.replicate 8 (9 : Byte)).length ≤ 8 ∧
    (List.replicate 8 (9 : Byte))[7]? = some 9 ∧ (2 + (List.replicate 8 (9 : Byte)).length ≤ 10 ∧ 10 < 12) ∧
    (2 + (List.replicate 8 (9 : Byte)).length ≤ 11 ∧ 11 < 12) := by decide

theorem witness_GencmdAnswersTheFrame : conf.configured = true ∧ (0 : BitVec 4) = 0 ∧ (1 : BitVec 4) ≠ 0 ∧
    State.reset.configured = false := by decide

/-- T1 is an instance; the longest payload that fits and the shortest that does not; one free place in the queue. -/
theorem witness_FrameOperationsCompleteUnderConcatenation : IsConcat T1 ∧ half.configured = true ∧
    (List.replicate 245 (0 : Byte)).length ≤ 245 ∧ 245 < (List.replicate 246 (0 : Byte)).length ∧
    (List.replicate 8 (0 : Byte)).length ≤ 8 ∧ half.cap.toNat ≤ qdepthMax T1 ∧ half.q.length < half.cap.toNat :=
  ⟨⟨fun _ => rfl, fun _ _ _ => rfl⟩, by decide, by decide +kernel, by decide +kernel, by decide, by decide, by decide⟩

theorem witness_SctrlAnswersTheFrame : conf.configured = true ∧ (List.replicate 8 (0 : Byte)).length ≤ 8 ∧
    8 < (List.replicate 9 (0 : Byte)).length ∧ State.reset.configured = false := by decide

/-- One free place, and none, and before SETUP. -/
theorem witness_EnqAppendsOrDropsTheFrame : half.configured = true ∧ half.q.length < half.cap.toNat ∧
    half.cap.toNat ≤ qdepthMax Config.framer ∧ full.configured = true ∧ full.cap.toNat ≤ full.q.length ∧
    State.reset.configured = false :=
  ⟨by decide, by decide, le_trans (by decide : (2 : Nat) ≤ 100) (Nat.le_add_left _ _), by decide, by decide, by decide⟩

theorem witness_CapacityIsExact : conf.configured = true ∧ conf.q = [] ∧ conf.cap.toNat ≤ qdepthMax Config.framer :=
  ⟨by decide, by decide, Nat.le_add_left _ _⟩

theorem witness_ClrEmptiesTheQueue : full.configured = true ∧ State.reset.configured = false := by decide

theorem witness_QsizeAndQemptyReportTheLength : full.configured = true ∧ full.q.length ≤ full.cap.toNat ∧
    conf.configured = true ∧ conf.q = [] ∧ full.q ≠ [] ∧ State.reset.configured = false := by decide

theorem witness_EnqrawEnqueuesTheFrame : half.configured = true ∧ (0 : BitVec 4) = 0 ∧
    half.cap.toNat ≤ qdepthMax Config.framer ∧ half.q.length < half.cap.toNat ∧ (8 : BitVec 4) ≠ 0 ∧
    full.configured = true ∧ full.cap.toNat ≤ full.q.length ∧ State.reset.configured = false :=
  ⟨by decide, by decide, le_trans (by decide : (2 : Nat) ≤ 100) (Nat.le_add_left _ _), by decide, by decide, by decide,
    by decide, by decide⟩

theorem witness_FresetEnqueuesTheZeroedFrame : half.configured = true ∧ half.cap.toNat ≤ qdepthMax Config.framer ∧
    half.q.length < half.cap.toNat ∧ full.configured = true ∧ full.cap.toNat ≤ full.q.length :=
  ⟨by decide, le_trans (by decide : (2 : Nat) ≤ 100) (Nat.le_add_left _ _), by decide, by decide, by decide⟩

theorem witness_FresetIsAnEnqrawOfZeros : conf.configured = true ∧ T1.rfLen 11 ≤ 255 := by decide

/-- A framer that differs from `exec`'s in MFR_ID alone, a CAP that fits both FIFOs, and two framers under
RF_FRAME_CONCAT. -/
theorem witness_MeaningsDependOnTheirParameters :
    (let P : Params := { Config.framer with mfrId := Config.framer.mfrId + 1 }
     P.hdrKs = Config.framer.hdrKs ∧ P.preamble = Config.framer.preamble ∧
      P.hdr2KeyIndex = Config.framer.hdr2KeyIndex ∧ P.rfLen = Config.framer.rfLen ∧ P.rfByte = Config.framer.rfByte ∧
      conf.cap.toNat ≤ qdepthMax P ∧ conf.cap.toNat ≤ qdepthMax Config.framer) ∧
    IsConcat T1 ∧ IsConcat { T1 with mfrId := 0 } ∧ conf.cap.toNat ≤ qdepthMax T1 :=
  ⟨⟨rfl, rfl, rfl, rfl, rfl, Nat.le_add_left _ _, Nat.le_add_left _ _⟩, ⟨fun _ => rfl, fun _ _ _ => rfl⟩,
    ⟨fun _ => rfl, fun _ _ _ => rfl⟩, by decide⟩

/-- An empty queue, and one entry under each of the radio's three behaviours. -/
theorem witness_IdleTickServesOneCommand : conf.configured = true ∧ conf.mode = .normal ∧ conf.advState = .idle ∧
    conf.q = [] ∧ half.configured = true ∧ half.mode = .normal ∧ half.advState = .idle ∧ half.q = entry 1 :: [] ∧
    ({ half with radioIn := [0, 0] } : State).radioIn = 0 :: 0 :: [] ∧ 4 ≠ 0 ∧
    ({ half with radioIn := [4] } : State).radioIn = 4 :: [] ∧
    ({ half with radioIn := [0, 4] } : State).radioIn = 0 :: 4 :: [] := by decide

/-- V318: 49 and 50 ms of a duration of 50. -/
theorem witness_AdvertisingTickEndsAtTheDuration :
    (let s : State := { conf with advState := .advertising, stateT := 1000, now := 1049 }
     s.configured = true ∧ s.mode = .normal ∧ s.advState = .advertising ∧ s.elapsed s.stateT < s.advDur.toNat) ∧
    (let s : State := { conf with advState := .advertising, stateT := 1000, now := 1050, radioIn := [3] }
     s.configured = true ∧ s.mode = .normal ∧ s.advState = .advertising ∧ s.advDur.toNat ≤ s.elapsed s.stateT ∧
      s.radioIn = 3 :: []) := by decide

/-- V318: 9 and 10 ms of a gap of 10. -/
theorem witness_GapTickFallsThroughToIdle :
    (let s : State := { conf with advState := .gap, stateT := 1050, now := 1059 }
     s.configured = true ∧ s.mode = .normal ∧ s.advState = .gap ∧ s.elapsed s.stateT < s.advGap.toNat) ∧
    (let s : State := { conf with advState := .gap, stateT := 1050, now := 1060 }
     s.configured = true ∧ s.mode = .normal ∧ s.advState = .gap ∧ s.advGap.toNat ≤ s.elapsed s.stateT) := by decide

theorem witness_PairOpensASession : ({ conf with radioIn := [2, 0] } : State).configured = true ∧
    ({ conf with radioIn := [2, 0] } : State).radioIn = 2 :: 0 :: [] ∧ State.reset.configured = false := by decide

theorem witness_PairAndTickAlwaysAnswerOk : conf.configured = true := by decide

/-- V319: the first tick that times out. -/
theorem witness_SessionTimesOut :
    let s : State := { sess2 61000 with radioIn := [1, 8] }
    s.configured = true ∧ s.mode = .pairing ∧ 60000 ≤ s.elapsed s.pairT0 ∧ s.radioIn = 1 :: 8 :: [] := by decide

/-- The last quiet millisecond after a replacement, in each phase. -/
theorem witness_QuietPairingTick :
    (let s : State := { sess 1099 with pairDirty := false }
     s.configured = true ∧ s.mode = .pairing ∧ s.elapsed s.pairT0 < 60000 ∧
      (s.pairPhase = .discovery ∧ s.elapsed s.phaseT < 4000) ∧ s.pairDirty = false ∧
      s.elapsed s.lastAdvT < T1.tReplace) ∧
    (let s : State := sess2 5099
     s.configured = true ∧ s.mode = .pairing ∧ s.elapsed s.pairT0 < 60000 ∧
      (s.pairPhase = .pairing ∧ s.curId.toNat = (s.baseId.toNat + s.elapsed s.phaseT / 5000) % 65536) ∧
      s.pairDirty = false ∧ s.elapsed s.lastAdvT < T1.tReplace) := by decide

/-- The last millisecond of the dwell. -/
theorem witness_DiscoveryTickBroadcasts :
    let s : State := { sess 4999 with radioIn := [2, 0, 0] }
    s.configured = true ∧ s.mode = .pairing ∧ s.pairPhase = .discovery ∧ s.elapsed s.pairT0 < 60000 ∧
      s.elapsed s.phaseT < 4000 ∧ s.pairDirty = true ∧ s.radioIn = 2 :: 0 :: 0 :: [] := by decide

/-- The first millisecond after it. -/
theorem witness_DwellExpiryEntersThePairingPhase :
    let s : State := { sess 5000 with radioIn := [2, 0, 0] }
    s.configured = true ∧ s.mode = .pairing ∧ s.pairPhase = .discovery ∧ s.elapsed s.pairT0 < 60000 ∧
      4000 ≤ s.elapsed s.phaseT ∧ s.radioIn = 2 :: 0 :: 0 :: [] := by decide

/-- The first millisecond of slot 1. -/
theorem witness_NewSlotForcesABroadcast :
    let s : State := { sess2 10000 with radioIn := [2, 0, 0] }
    s.configured = true ∧ s.mode = .pairing ∧ s.pairPhase = .pairing ∧ s.elapsed s.pairT0 < 60000 ∧
      (101 : Half).toNat = (s.baseId.toNat + s.elapsed s.phaseT / 5000) % 65536 ∧ (101 : Half) ≠ s.curId ∧
      s.radioIn = 2 :: 0 :: 0 :: [] := by decide

/-- The slot's own id with a replacement owed, and with T1's T_REPLACE of 100 ms just passed (V332 at 5100). -/
theorem witness_SameSlotTickRebroadcasts :
    (let s : State := { sess2 5050 with pairDirty := true, radioIn := [2, 0, 0] }
     s.configured = true ∧ s.mode = .pairing ∧ s.pairPhase = .pairing ∧ s.elapsed s.pairT0 < 60000 ∧
      s.curId.toNat = (s.baseId.toNat + s.elapsed s.phaseT / 5000) % 65536 ∧ s.pairDirty = true ∧
      s.radioIn = 2 :: 0 :: 0 :: []) ∧
    (let s : State := { sess2 5100 with radioIn := [2, 0, 0] }
     s.configured = true ∧ s.mode = .pairing ∧ s.pairPhase = .pairing ∧ s.elapsed s.pairT0 < 60000 ∧
      s.curId.toNat = (s.baseId.toNat + s.elapsed s.phaseT / 5000) % 65536 ∧
      T1.tReplace ≤ s.elapsed s.lastAdvT ∧ s.radioIn = 2 :: 0 :: 0 :: []) := by decide

/-- Both refusals, and each of the four ticks: the last millisecond of the dwell, the first after it, the slot's own id
with a replacement owed, and the first millisecond of slot 1. -/
theorem witness_RefusedReplacementIsRetried : 5 ≠ 0 ∧ [0, 5] = refusalCodes 0 5 false ++ [] ∧
    [0, 0, 5] = refusalCodes 0 5 true ++ [] ∧ (sess 2000).replacementDue T1 = true ∧
    (let s : State := { sess 4999 with radioIn := [0, 5] }
     s.radioIn = [0, 5] ∧ s.configured = true ∧ s.mode = .pairing ∧ s.elapsed s.pairT0 < 60000 ∧
      s.pairPhase = .discovery ∧ s.elapsed s.phaseT < 4000 ∧ s.pairDirty = true) ∧
    (let s : State := { sess 5000 with radioIn := [0, 0, 5] }
     s.radioIn = [0, 0, 5] ∧ s.configured = true ∧ s.mode = .pairing ∧ s.elapsed s.pairT0 < 60000 ∧
      s.pairPhase = .discovery ∧ 4000 ≤ s.elapsed s.phaseT) ∧
    (let s : State := { sess2 9999 with pairDirty := true, radioIn := [0, 5] }
     s.radioIn = [0, 5] ∧ s.configured = true ∧ s.mode = .pairing ∧ s.elapsed s.pairT0 < 60000 ∧
      s.pairPhase = .pairing ∧ (100 : Half).toNat = (s.baseId.toNat + s.elapsed s.phaseT / 5000) % 65536 ∧
      100 = s.curId ∧ s.pairDirty = true) ∧
    (let s : State := { sess2 10000 with radioIn := [0, 0, 5] }
     s.radioIn = [0, 0, 5] ∧ s.configured = true ∧ s.mode = .pairing ∧ s.elapsed s.pairT0 < 60000 ∧
      s.pairPhase = .pairing ∧ (101 : Half).toNat = (s.baseId.toNat + s.elapsed s.phaseT / 5000) % 65536 ∧
      101 ≠ s.curId) := by decide

theorem witness_PairingPropertyHolds : conf.configured = true := by decide

/-- The last tick of a session whose dwell ended on time. -/
theorem witness_SessionSweepsAtMostTwelveIds :
    let s : State := sess2 60999
    s.configured = true ∧ s.mode = .pairing ∧ s.pairPhase = .pairing ∧ 4000 ≤ (s.phaseT - s.pairT0).toNat ∧
      (s.phaseT - s.pairT0).toNat ≤ s.elapsed s.pairT0 ∧ s.elapsed s.pairT0 < 60000 ∧ ∃ t, exec .tick s = .next t :=
  ⟨by decide, by decide, by decide, by decide, by decide, by decide, _, rfl⟩

/-- Its one hypothesis, at T1's one-byte trailer. -/
theorem witness_PairingFrameCarriesKeyAndTrailer :
    (T1.pairCheck [1, 2, 3]).length + min [(1 : Byte), 2, 3].length 8 ≤ 31 := by
  decide

/-- T1's own pairing and discovery frames are such functions. -/
theorem witness_PairingFramesAreUninterpreted :
    (∀ key lid gid pseq, (T1.pairingRaw key lid gid pseq).length ≤ 31 ∧ SpellsKey key (T1.pairingRaw key lid gid pseq) ∧
      ∃ head, T1.pairingRaw key lid gid pseq = head ++ T1.pairCheck head) ∧
    ∀ key lid gid, (T1.discoveryRaw key lid gid).length ≤ 31 := by
  refine ⟨fun key lid gid pseq => ⟨by simp [T1, keyDigits_length], ?_, ?_⟩, fun _ _ _ => by simp [T1]⟩
  · exact ⟨key.b0, key.b1, key.b2, key.b3, hexByte true key.b0, hexByte true key.b1, hexByte true key.b2,
      hexByte true key.b3, [hiByte lid, loByte lid, pseq], [], [], [], [0xCC], .refl _, ⟨true, true, rfl⟩,
      ⟨true, true, rfl⟩, ⟨true, true, rfl⟩, ⟨true, true, rfl⟩, by simp [T1, keyDigits, Bytes4.toList]⟩
  · exact ⟨[hiByte lid, loByte lid, pseq] ++ keyDigits key, rfl⟩

/-- A configured state with a full queue, and a step from it. -/
theorem witness_StepKeepsTheInvariants : full.Inv Config.framer ∧ ∃ t, step full = .next t := by
  refine ⟨?_, _, rfl⟩
  constructor <;> simp [full, conf, entry, State.reset, Registers.reset, qdepthMax, frameMax]

theorem witness_NoStepEverStops :
    ({ full with pending := [.op 0x20 [0x01, 0xFF] 5] } : State).Inv Config.framer := by
  constructor <;> simp [full, conf, entry, State.reset, Registers.reset, qdepthMax, frameMax]

theorem witness_ExactlyOneResponseEach : ∃ t, exec .clr full = .next t := ⟨_, rfl⟩

/-- Both ways MODE changes. -/
theorem witness_ModeChangesOnlyInPairAndTimeout :
    (∃ t, exec (.pair 100 1) { conf with radioIn := [0, 0] } = .next t ∧ t.mode ≠ .normal) ∧ conf.mode = .normal ∧
    (∃ t, exec .tick { sess2 61000 with radioIn := [0, 0] } = .next t ∧ t.mode ≠ .pairing) ∧
      (sess2 61000).mode = .pairing :=
  ⟨⟨_, rfl, by decide⟩, by decide, ⟨_, rfl, by decide⟩, by decide⟩

theorem witness_ConfigurationAndSequenceWriters : (∃ t, exec .clr full = .next t) ∧ full.configured = true ∧
    ∀ key cap n x d g, Instr.clr ≠ .setup key cap n x d g :=
  ⟨⟨_, rfl⟩, by decide, by simp⟩

theorem witness_QueueIsAFifo : ∃ t, exec .clr full = .next t := ⟨_, rfl⟩

theorem witness_ProducerOperationsIgnoreTheSession : Instr.clr.opcode ∉ [(0x01 : Byte), 0x02, 0x30] ∧
    ∃ t, exec .clr (sess 1000) = .next t := ⟨by decide, _, rfl⟩

theorem witness_ScanningStartsOnlyAtTheTimeout :
    let s : State := { sess2 61000 with radioIn := [0, 0] }
    ∃ t, exec .tick s = .next t ∧ ∃ e ∈ t.trace.drop s.trace.length, e.isStartScan = true :=
  ⟨_, rfl, by decide⟩

/-- Off; on and white; on and not white, with each part set and not set; both ends of the range of a channel. -/
theorem witness_LightPayloadShape : ({ lamp with on := false } : LightState).on = false ∧
    (lamp.on = true ∧ lightInContract lamp = true ∧ lamp.white = false ∧ lamp.rgb = false ∧
      lamp.coldWarmWhite = false ∧ lamp.colorTemperature = false) ∧
    (let l : LightState := { lamp with rgb := true, coldWarmWhite := true }
     l.on = true ∧ lightInContract l = true ∧ l.white = false ∧ l.rgb = true ∧ l.coldWarmWhite = true) ∧
    (let l : LightState := { lamp with colorTemperature := true, mireds := 153 }
     l.on = true ∧ lightInContract l = true ∧ l.white = false ∧ l.coldWarmWhite = false ∧
      l.colorTemperature = true ∧ (0 : Rat) = max 0 (min 1 ((l.mireds - 153) / 347))) ∧
    lightInContract { lamp with white := true } = true ∧ (0 : Rat) ≤ 0 ∧ (0 : Rat) ≤ 1 ∧ (1 : Rat) ≤ 1 := by
  decide +kernel

/-- The two end points themselves. -/
theorem witness_ColourTemperatureEndPoints :
    (let l : LightState := { lamp with colorTemperature := true, mireds := 153 }
     l.on = true ∧ lightInContract l = true ∧ l.white = false ∧ l.coldWarmWhite = false ∧ l.colorTemperature = true ∧
      l.mireds ≤ 153) ∧
    (let l : LightState := { lamp with colorTemperature := true, mireds := 500 }
     l.on = true ∧ lightInContract l = true ∧ l.white = false ∧ l.coldWarmWhite = false ∧ l.colorTemperature = true ∧
      500 ≤ l.mireds) := by decide +kernel

end Sys2Proof.Tests
end

section
/-! The frame operations and ENQ over two framers P and Q: under which agreement of the OPEN parameters they answer
alike (00_scope R5). `exec` is the case Q = `Config.framer`. -/

namespace Sys2Proof.Machine

/-! ### `exec` is the operations at the framer's own parameters -/

theorem exec_setup (key : Bytes4) (cap intMin intMax : Half) (advDur advGap : Word32) (s : State) :
    exec (.setup key cap intMin intMax advDur advGap) s =
      setup Config.framer key cap intMin intMax advDur advGap s := rfl

theorem exec_tick (s : State) : exec .tick s = tick Config.framer s := rfl

theorem exec_gencmd (ct : BitVec 3) (fwd : Bool) (rsv : BitVec 4) (tid : Half) (payload : List Byte) (s : State) :
    exec (.gencmd ct fwd rsv tid payload) s = gencmd Config.framer ct fwd rsv tid payload s := rfl

theorem exec_sctrl (tid : Half) (light : List Byte) (s : State) :
    exec (.sctrl tid light) s = sctrl Config.framer tid light s := rfl

theorem exec_enq (frame : List Byte) (s : State) : exec (.enq frame) s = enq Config.framer frame s := rfl

theorem exec_enqraw (ct : BitVec 3) (fwd : Bool) (rsv : BitVec 4) (tid : Half) (payload : List Byte) (s : State) :
    exec (.enqraw ct fwd rsv tid payload) s = enqraw Config.framer ct fwd rsv tid payload s := rfl

theorem exec_pair (lid gid : Half) (s : State) : exec (.pair lid gid) s = pair Config.framer lid gid s := rfl

theorem exec_freset (lid : Half) (s : State) : exec (.freset lid) s = freset Config.framer lid s := rfl

/-! ### The states in which parameters show -/

/-- A configured framer, else as after reset: Normal, Idle, an empty queue, CAP = 100, every time 0. -/
def ready : State := { State.reset with configured := true }

/-- The same with a mesh key. -/
def readyWith (key : Bytes4) : State := { ready with meshKey := key }

/-- Every FIFO holds the 100 entries of CAP's reset value (92 D7). -/
theorem readyWith_cap_le_qdepthMax (key : Bytes4) (P : Params) : (readyWith key).cap.toNat ≤ qdepthMax P :=
  Nat.le_add_left 100 P.qdepthExtra

theorem readyWith_room (key : Bytes4) : (readyWith key).q.length < (readyWith key).cap.toNat := by
  simp [readyWith, ready, State.reset, Registers.reset]

/-- An event shows the state it was added to. -/
theorem State.emit_left_inj {s t : State} {e : Event} : s.emit e = t.emit e ↔ s = t := by
  constructor
  · intro h
    obtain ⟨r, p, n, i, f, tr⟩ := s
    obtain ⟨r', p', n', i', f', tr'⟩ := t
    simpa [State.emit] using h
  · rintro rfl; rfl

/-- A response shows the state it was given in. -/
theorem State.respond_left_inj {s t : State} {st : Status} {d : List Byte} :
    s.respond st d = t.respond st d ↔ s = t := State.emit_left_inj

/-- A response shows its data. -/
theorem State.respond_right_inj {s : State} {st : Status} {d d' : List Byte} :
    s.respond st d = s.respond st d' ↔ d = d' := by
  simp [State.respond, State.emit]

/-- Bounds n or more are not told apart by numbers below n. -/
theorem min_eq_min_iff_forall_lt {a b n : Nat} : min a n = min b n ↔ ∀ d < n, (a ≤ d ↔ b ≤ d) := by
  constructor
  · intro h d hd; omega
  · intro h
    have ha := h a
    have hb := h b
    omega

/-! ### Frame generation -/

/-- The framers make the same frames: HDR_KS, PREAMBLE, HDR2_KEY_INDEX and RF_FRAME (00_scope R5). -/
structure SameFraming (P Q : Params) : Prop where
  hdrKs : P.hdrKs = Q.hdrKs
  preamble : P.preamble = Q.preamble
  hdr2KeyIndex : P.hdr2KeyIndex = Q.hdr2KeyIndex
  rfLen : P.rfLen = Q.rfLen
  rfByte : P.rfByte = Q.rfByte

theorem SameFraming.frameFits {P Q : Params} (h : SameFraming P Q) : frameFits P = frameFits Q := by
  funext n; simp only [Machine.frameFits, h.rfLen]

theorem SameFraming.genFrame {P Q : Params} (h : SameFraming P Q) : State.genFrame P = State.genFrame Q := by
  funext ct tid payload fwd s
  simp only [State.genFrame, State.genBody, rfFrame, plainBody, h.hdrKs, h.preamble, h.hdr2KeyIndex, h.rfLen, h.rfByte]

theorem SameFraming.gencmd {P Q : Params} (h : SameFraming P Q) : gencmd P = gencmd Q := by
  funext ct fwd rsv tid payload s
  simp only [Machine.gencmd, h.frameFits, h.genFrame]

theorem SameFraming.sctrl {P Q : Params} (h : SameFraming P Q) : sctrl P = sctrl Q := by
  funext tid light s
  simp only [Machine.sctrl, h.frameFits, h.genFrame]

/-- Where CAP fits both FIFOs their depth does not show: a push is made only below CAP (41_queue R120). -/
theorem enqBody_eq_of_cap_le {P Q : Params} {s : State} (hP : s.cap.toNat ≤ qdepthMax P)
    (hQ : s.cap.toNat ≤ qdepthMax Q) (frame : List Byte) : enqBody P frame s = enqBody Q frame s := by
  rcases Nat.lt_or_ge s.q.length s.cap.toNat with hroom | hfull
  · rw [enqBody_room hroom hP, enqBody_room hroom hQ]
  · rw [enqBody_full hfull, enqBody_full hfull]

theorem enq_eq_of_cap_le {P Q : Params} {s : State} (hP : s.cap.toNat ≤ qdepthMax P) (hQ : s.cap.toNat ≤ qdepthMax Q)
    (frame : List Byte) : enq P frame s = enq Q frame s := by
  rw [enq, enq, enqBody_eq_of_cap_le hP hQ]

theorem SameFraming.enqraw {P Q : Params} (h : SameFraming P Q) {s : State} (hP : s.cap.toNat ≤ qdepthMax P)
    (hQ : s.cap.toNat ≤ qdepthMax Q) (ct : BitVec 3) (fwd : Bool) (rsv : BitVec 4) (tid : Half) (payload : List Byte) :
    enqraw P ct fwd rsv tid payload s = enqraw Q ct fwd rsv tid payload s := by
  have hbody := enqBody_eq_of_cap_le (s := { s with seq := seqSucc s.seq }) hP hQ
  simp only [Machine.enqraw, h.frameFits, h.genFrame, genFrame_snd, hbody]

theorem SameFraming.freset {P Q : Params} (h : SameFraming P Q) {s : State} (hP : s.cap.toNat ≤ qdepthMax P)
    (hQ : s.cap.toNat ≤ qdepthMax Q) (lid : Half) : freset P lid s = freset Q lid s := by
  have hbody := enqBody_eq_of_cap_le (s := { s with seq := seqSucc s.seq }) hP hQ
  simp only [Machine.freset, h.frameFits, h.genFrame, genFrame_snd, hbody]

/-! ### The frame operations where they generate a frame -/

theorem gencmd_accepted {P : Params} {s : State} (hc : s.configured = true) {payload : List Byte}
    (hf : P.rfLen (4 + payload.length) ≤ frameMax) (ct : BitVec 3) (fwd : Bool) (tid : Half) :
    gencmd P ct fwd 0 tid payload s = .next (({ s with seq := seqSucc s.seq } : State).respond .ok
      (frameData (s.genFrame P ct tid payload fwd).1)) := by
  have hfits : frameFits P payload.length = true := (frameFits_iff ..).mpr hf
  simp [gencmd, hc, hfits]

theorem sctrl_accepted {P : Params} {s : State} (hc : s.configured = true) {light : List Byte}
    (hl : light.length ≤ lightMax) (hf : P.rfLen (4 + innerLen) ≤ frameMax) (tid : Half) :
    sctrl P tid light s = .next (({ s with seq := seqSucc s.seq } : State).respond .ok
      (frameData (s.genFrame P ctControl tid (innerStructure tid light) true).1)) := by
  have hfits : frameFits P innerLen = true := (frameFits_iff ..).mpr hf
  simp [sctrl, hc, hfits, Nat.not_lt.mpr hl]

theorem enqraw_accepted {P : Params} {s : State} (hc : s.configured = true) {payload : List Byte}
    (hf : P.rfLen (4 + payload.length) ≤ frameMax) (ct : BitVec 3) (fwd : Bool) (tid : Half) :
    enqraw P ct fwd 0 tid payload s =
      enqBody P (s.genFrame P ct tid payload fwd).1 { s with seq := seqSucc s.seq } := by
  have hfits : frameFits P payload.length = true := (frameFits_iff ..).mpr hf
  simp [enqraw, hc, hfits]

theorem freset_accepted {P : Params} {s : State} (hc : s.configured = true)
    (hf : P.rfLen (4 + fresetLen) ≤ frameMax) (lid : Half) :
    freset P lid s = enqBody P (s.genFrame P ctControl lid (List.replicate fresetLen 0x00) true).1
      { s with seq := seqSucc s.seq } := by
  have hfits : frameFits P fresetLen = true := (frameFits_iff ..).mpr hf
  simp [freset, hc, hfits]

/-- With room in the queue, two bodies of ENQ that answer alike were given the same frame. -/
theorem frame_eq_of_enqBody_eq {P Q : Params} {s : State} {f g : List Byte} (h : enqBody P f s = enqBody Q g s)
    (hl : s.q.length < s.cap.toNat) (hP : s.cap.toNat ≤ qdepthMax P) (hQ : s.cap.toNat ≤ qdepthMax Q) : f = g := by
  rw [enqBody_room hl hP, enqBody_room hl hQ] at h
  have hs := State.respond_left_inj.mp (Host.Outcome.next.inj h)
  simpa using congrArg State.toRegisters hs

/-! ### Under RF_FRAME_CONCAT a frame shows what it was made with (40_codec R98) -/

/-- RF_FRAME_CONCAT: the preamble, then the body. -/
theorem IsConcat.rfFrame {P : Params} (h : IsConcat P) (body : List Byte) :
    rfFrame P body = P.preamble.toList ++ body := by
  obtain ⟨hlen, hbyte⟩ := h
  refine List.ext_getElem (by simp [hlen]) fun k _ hk => ?_
  simp [Machine.rfFrame, hbyte, List.getElem?_eq_getElem hk]

theorem IsConcat.rfLen_le_frameMax {P : Params} (h : IsConcat P) {n : Nat} (hn : n ≤ 249) : P.rfLen n ≤ frameMax := by
  rw [h.1]; unfold frameMax; omega

theorem IsConcat.sameFraming {P Q : Params} (hP : IsConcat P) (hQ : IsConcat Q) (h : SameCipherAndAddress P Q) :
    SameFraming P Q := by
  obtain ⟨hks, hpre, hidx⟩ := h
  refine ⟨hks, hpre, hidx, ?_, ?_⟩
  · funext k; rw [hP.1, hQ.1]
  · funext pre body k; rw [hP.2, hQ.2]

/-- The plain body, byte by byte (40_codec R97). -/
theorem plainBody_eq (P : Params) (key : Bytes4) (seq : Byte) (ct : BitVec 3) (tid : Half) (payload : List Byte)
    (fwd : Bool) : plainBody P key seq ct tid payload fwd =
      hdr0 ct tid fwd :: seq :: keyByte key P.hdr2KeyIndex.val ::
        checksum ([hdr0 ct tid fwd, seq, keyByte key P.hdr2KeyIndex.val, 0x00] ++ payload) :: payload := rfl

/-- The ciphertext of a known header shows HDR_KS (40_codec R94). -/
theorem hdrKs_eq_of_xorCrypt_eq {ks ks' key : Bytes4} {b0 b1 b2 b3 : Byte} {rest : List Byte}
    (h : xorCrypt ks key (b0 :: b1 :: b2 :: b3 :: rest) = xorCrypt ks' key (b0 :: b1 :: b2 :: b3 :: rest)) :
    ks = ks' := by
  obtain ⟨k0, k1, k2, k3⟩ := ks
  obtain ⟨k0', k1', k2', k3'⟩ := ks'
  simp only [xorCrypt, xorFrom, keystream, keyByte, List.cons.injEq, Nat.reduceAdd, Nat.reduceLeDiff, if_true,
    BitVec.xor_right_inj, zero_le] at h
  obtain ⟨h0, h1, h2, h3, _⟩ := h
  simp [h0, h1, h2, h3]

/-- Under one key different bodies have different ciphertexts (40_codec R94, R96). -/
theorem xorFrom_injective (ks key : Bytes4) (i : Nat) : Function.Injective (xorFrom ks key i) := by
  intro b
  induction b generalizing i with
  | nil =>
    intro c h
    cases c with
    | nil => rfl
    | cons d ds => simp [xorFrom] at h
  | cons b bs ih =>
    intro c h
    cases c with
    | nil => simp [xorFrom] at h
    | cons d ds =>
      simp only [xorFrom, List.cons.injEq, BitVec.xor_left_inj] at h
      rw [h.1, ih _ h.2]

/-- A key whose bytes are all equal hides HDR2_KEY_INDEX. -/
def flatKey : Bytes4 := ⟨0, 0, 0, 0⟩

/-- A key whose byte i is i shows HDR2_KEY_INDEX. -/
def countingKey : Bytes4 := ⟨0, 1, 2, 3⟩

theorem keyByte_flatKey (i : Nat) : keyByte flatKey i = 0 := by
  unfold keyByte; split <;> rfl

theorem keyByte_countingKey_injective : ∀ i j : Fin 4, keyByte countingKey i = keyByte countingKey j → i = j := by
  decide

/-- Two framers under RF_FRAME_CONCAT that make the same frame of one command under every mesh key agree on what a frame
is made with: the frame begins with the preamble; under the flat key both plain bodies are the same and show HDR_KS; and
then under the counting key the third header byte shows HDR2_KEY_INDEX. -/
theorem sameCipherAndAddress_of_genFrame_eq {P Q : Params} (hP : IsConcat P) (hQ : IsConcat Q) (ct : BitVec 3)
    (tid : Half) (payload : List Byte) (fwd : Bool)
    (h : ∀ key : Bytes4, ((readyWith key).genFrame P ct tid payload fwd).1 =
      ((readyWith key).genFrame Q ct tid payload fwd).1) :
    SameCipherAndAddress P Q := by
  have parts : ∀ key : Bytes4, P.preamble.toList = Q.preamble.toList ∧
      xorCrypt P.hdrKs key (plainBody P key ready.seq ct tid payload fwd) =
        xorCrypt Q.hdrKs key (plainBody Q key ready.seq ct tid payload fwd) := by
    intro key
    have hk := h key
    rw [genFrame_fst, genFrame_fst, hP.rfFrame, hQ.rfFrame] at hk
    exact List.append_inj hk (by simp)
  have hks : P.hdrKs = Q.hdrKs := by
    have hflat := (parts flatKey).2
    rw [plainBody_eq, plainBody_eq, keyByte_flatKey, keyByte_flatKey] at hflat
    exact hdrKs_eq_of_xorCrypt_eq hflat
  have hidx : P.hdr2KeyIndex = Q.hdr2KeyIndex := by
    have hcount := (parts countingKey).2
    rw [hks] at hcount
    have hplain := xorFrom_injective _ _ _ hcount
    simp only [plainBody_eq, List.cons.injEq] at hplain
    obtain ⟨_, _, hkey, _⟩ := hplain
    exact keyByte_countingKey_injective _ _ hkey
  exact ⟨hks, Vector.toList_inj.mp (parts flatKey).1, hidx⟩

theorem gencmd_eq_iff {P Q : Params} (hP : IsConcat P) (hQ : IsConcat Q) :
    (∀ ct fwd rsv tid payload s, gencmd P ct fwd rsv tid payload s = gencmd Q ct fwd rsv tid payload s) ↔
      SameCipherAndAddress P Q := by
  constructor
  · intro h
    refine sameCipherAndAddress_of_genFrame_eq hP hQ 0 0 [] false fun key => ?_
    have hk := h 0 false 0 0 [] (readyWith key)
    rw [gencmd_accepted rfl (hP.rfLen_le_frameMax (by simp)),
      gencmd_accepted rfl (hQ.rfLen_le_frameMax (by simp))] at hk
    exact (List.cons.inj (State.respond_right_inj.mp (Host.Outcome.next.inj hk))).2
  · intro h ct fwd rsv tid payload s
    rw [(hP.sameFraming hQ h).gencmd]

theorem sctrl_eq_iff {P Q : Params} (hP : IsConcat P) (hQ : IsConcat Q) :
    (∀ tid light s, sctrl P tid light s = sctrl Q tid light s) ↔ SameCipherAndAddress P Q := by
  constructor
  · intro h
    refine sameCipherAndAddress_of_genFrame_eq hP hQ ctControl 0 (innerStructure 0 []) true fun key => ?_
    have hk := h 0 [] (readyWith key)
    rw [sctrl_accepted rfl (Nat.zero_le _) (hP.rfLen_le_frameMax (by decide)),
      sctrl_accepted rfl (Nat.zero_le _) (hQ.rfLen_le_frameMax (by decide))] at hk
    exact (List.cons.inj (State.respond_right_inj.mp (Host.Outcome.next.inj hk))).2
  · intro h tid light s
    rw [(hP.sameFraming hQ h).sctrl]

theorem enqraw_eq_iff {P Q : Params} (hP : IsConcat P) (hQ : IsConcat Q) :
    (∀ ct fwd rsv tid payload (s : State), s.cap.toNat ≤ qdepthMax P → s.cap.toNat ≤ qdepthMax Q →
      enqraw P ct fwd rsv tid payload s = enqraw Q ct fwd rsv tid payload s) ↔ SameCipherAndAddress P Q := by
  constructor
  · intro h
    refine sameCipherAndAddress_of_genFrame_eq hP hQ 0 0 [] false fun key => ?_
    have hk := h 0 false 0 0 [] (readyWith key) (readyWith_cap_le_qdepthMax key P) (readyWith_cap_le_qdepthMax key Q)
    rw [enqraw_accepted rfl (hP.rfLen_le_frameMax (by simp)),
      enqraw_accepted rfl (hQ.rfLen_le_frameMax (by simp))] at hk
    exact frame_eq_of_enqBody_eq hk (readyWith_room key) (readyWith_cap_le_qdepthMax key P)
      (readyWith_cap_le_qdepthMax key Q)
  · intro h ct fwd rsv tid payload s hsP hsQ
    exact (hP.sameFraming hQ h).enqraw hsP hsQ ct fwd rsv tid payload

theorem freset_eq_iff {P Q : Params} (hP : IsConcat P) (hQ : IsConcat Q) :
    (∀ lid (s : State), s.cap.toNat ≤ qdepthMax P → s.cap.toNat ≤ qdepthMax Q → freset P lid s = freset Q lid s) ↔
      SameCipherAndAddress P Q := by
  constructor
  · intro h
    refine sameCipherAndAddress_of_genFrame_eq hP hQ ctControl 0 (List.replicate fresetLen 0x00) true fun key => ?_
    have hk := h 0 (readyWith key) (readyWith_cap_le_qdepthMax key P) (readyWith_cap_le_qdepthMax key Q)
    rw [freset_accepted rfl (hP.rfLen_le_frameMax (by decide)),
      freset_accepted rfl (hQ.rfLen_le_frameMax (by decide))] at hk
    exact frame_eq_of_enqBody_eq hk (readyWith_room key) (readyWith_cap_le_qdepthMax key P)
      (readyWith_cap_le_qdepthMax key Q)
  · intro h lid s hsP hsQ
    exact (hP.sameFraming hQ h).freset hsP hsQ lid

end Sys2Proof.Machine
end

section
/-! The RADIO port with its answers given and with none left, and SETUP and PAIR over two framers: which agreement
of the OPEN parameters makes them answer alike, and that no less does (00_scope R5). -/

namespace Sys2Proof.Machine

/-! ### The radio port, with answers given and with none left (20_memory R50) -/

theorem State.radio_given {P : Params} {call : RadioCall} {s : State} {rc : Nat} {codes : List Nat}
    (h : s.radioIn = rc :: codes) :
    s.radio P call = (rc, { s with radioIn := codes, trace := s.trace ++ [.radio call rc] }) := by
  simp [State.radio, State.nextCode, State.drawCode, State.emit, h]

theorem State.radioLogged_given {P : Params} {call : RadioCall} {s : State} {rc : Nat} {codes : List Nat}
    (h : s.radioIn = rc :: codes) :
    s.radioLogged P call = { s with radioIn := codes, trace := s.trace ++ loggedCall call rc } := by
  simp [State.radioLogged_eq, State.nextCode, State.drawCode, h]

/-- The code a logged call was answered with shows on the trace, whatever follows. -/
theorem code_eq_of_loggedCall_append_eq {call : RadioCall} {rc rc' : Nat} {l l' : List Event}
    (h : loggedCall call rc ++ l = loggedCall call rc' ++ l') : rc = rc' :=
  (Event.radio.inj (List.cons.inj h).1).2

theorem loggedCall_injective (call : RadioCall) : Function.Injective (loggedCall call) := fun _ _ h =>
  code_eq_of_loggedCall_append_eq (congrArg (· ++ []) h)

theorem radio_eq_of_radioCode_eq {P Q : Params} (h : P.radioCode = Q.radioCode) : State.radio P = State.radio Q := by
  funext call s
  simp only [State.radio, State.nextCode, h]

theorem radioLogged_eq_of_radioCode_eq {P Q : Params} (h : P.radioCode = Q.radioCode) :
    State.radioLogged P = State.radioLogged Q := by
  funext call s
  simp only [State.radioLogged, radio_eq_of_radioCode_eq h]

/-- An advertisement runs, and the radio's next answer is the k-th free one. -/
def onAirFree (k : Nat) : State := { ready with advState := .advertising, radioFree := k }

@[simp] theorem onAirFree_nextCode (P : Params) (k : Nat) : (onAirFree k).nextCode P = P.radioCode k := rfl

@[simp] theorem onAirFree_trace (k : Nat) : (onAirFree k).trace = [] := rfl

/-! ### SETUP (44_host_ops R200) -/

section Setup

variable {P Q : Params} (key : Bytes4) (cap intMin intMax : Half) (advDur advGap : Word32)

/-- On the ready framer SETUP is turned away exactly for a capacity the FIFO cannot hold: an accepted one makes no
warning. -/
theorem setup_ready_eq_rejectOperand_iff :
    setup P key cap intMin intMax advDur advGap ready = .next (ready.rejectOperand opSetup) ↔
      qdepthMax P < cap.toNat := by
  by_cases hd : qdepthMax P < cap.toNat <;>
    simp [setup, ready, State.reset, Registers.reset, hd, State.rejectOperand, State.reject_eq, State.respond_eq,
      turnedAway, State.configure, State.qClear]

/-- SETUP where an advertisement runs stops it. -/
theorem setup_advertising {s : State} (hm : s.mode = .normal) (ha : s.advState = .advertising)
    (hd : cap.toNat ≤ qdepthMax P) : setup P key cap intMin intMax advDur advGap s =
      .next (((s.radioLogged P .stopAdv).qClear.configure key cap intMin intMax advDur advGap).respond .ok []) := by
  simp [setup, hm, ha, Nat.not_lt.mpr hd]

end Setup

/-- SETUP tells two framers apart by the capacities they refuse, and by the code that answers its STOP_ADV. -/
theorem setup_eq_iff (P Q : Params) :
    (∀ key cap intMin intMax advDur advGap s,
      setup P key cap intMin intMax advDur advGap s = setup Q key cap intMin intMax advDur advGap s) ↔
    min (qdepthMax P) 65535 = min (qdepthMax Q) 65535 ∧ P.radioCode = Q.radioCode := by
  constructor
  · intro h
    constructor
    · refine min_eq_min_iff_forall_lt.mpr fun d hd => ?_
      have hcap : (BitVec.ofNat 16 (d + 1)).toNat = d + 1 := by
        rw [BitVec.toNat_ofNat]; omega
      have hrefuse := setup_ready_eq_rejectOperand_iff (P := P) flatKey (BitVec.ofNat 16 (d + 1)) 0 0 0 0
      rw [h, setup_ready_eq_rejectOperand_iff, hcap] at hrefuse
      omega
    · funext k
      have hk := h flatKey 0 0 0 0 0 (onAirFree k)
      rw [setup_advertising _ _ _ _ _ _ rfl rfl (Nat.zero_le _), setup_advertising _ _ _ _ _ _ rfl rfl (Nat.zero_le _)]
        at hk
      have hs := State.respond_left_inj.mp (Host.Outcome.next.inj hk)
      have ht := congrArg (fun t : State => t.trace) hs
      simp only [State.configure, State.qClear_trace, State.radioLogged_trace, onAirFree_trace, List.nil_append] at ht
      exact loggedCall_injective _ ht
  · rintro ⟨hdepth, hcode⟩ key cap intMin intMax advDur advGap s
    have hrefuse : qdepthMax P < cap.toNat ↔ qdepthMax Q < cap.toNat := by
      have := cap.isLt
      omega
    simp only [setup, hrefuse, radioLogged_eq_of_radioCode_eq hcode]

/-! ### PAIR (43_pairing R160) -/

/-- PAIR tells two framers apart by the PAIR_SEQ a session starts with, and by the code that answers its STOP_SCAN. -/
theorem pair_eq_iff (P Q : Params) :
    (∀ lid gid s, pair P lid gid s = pair Q lid gid s) ↔
      P.pairSeqDerive = Q.pairSeqDerive ∧ P.radioCode = Q.radioCode := by
  constructor
  · intro h
    have opened : ∀ lid gid k,
        (((onAirFree k).radioLogged P .stopScan).radioLogged P .stopAdv).qClear.openSession P lid gid =
          (((onAirFree k).radioLogged Q .stopScan).radioLogged Q .stopAdv).qClear.openSession Q lid gid := by
      intro lid gid k
      have hk := h lid gid (onAirFree k)
      rw [pair_configured P lid gid rfl, pair_configured Q lid gid rfl] at hk
      exact State.respond_left_inj.mp (Host.Outcome.next.inj hk)
    constructor
    · funext lid gid
      exact congrArg (fun t : State => t.pairSeq) (opened lid gid 0)
    · funext k
      have ht := congrArg (fun t : State => t.trace) (opened 0 0 k)
      simp only [State.openSession, State.qClear_trace, State.radioLogged_trace, onAirFree_trace, onAirFree_nextCode,
        List.nil_append] at ht
      exact code_eq_of_loggedCall_append_eq ht
  · rintro ⟨hderive, hcode⟩ lid gid s
    simp only [pair, State.openSession, hderive, radioLogged_eq_of_radioCode_eq hcode]

end Sys2Proof.Machine
end

section
/-! TICK over two framers: the parameters it depends on, each shown by one state, and the statement about all operations
(00_scope R5). -/

namespace Sys2Proof.Machine

/-! ### What a tick's parts do when the radio's answers are given (42_scheduler R142, 43_pairing R163 to R168) -/

/-- The Idle step with both calls answered 0: the oldest command goes on the air. -/
theorem State.idleStep_served (P : Params) {s : State} {c : Command} {rest : List Command} {codes : List Nat}
    (hq : s.q = c :: rest) (hr : s.radioIn = 0 :: 0 :: codes) : s.idleStep P =
      { s with
        q := rest, advState := .advertising, stateT := s.now, radioIn := codes
        trace := s.trace ++ [.radio (.cfgAdvData (adWrap P c.frame)) 0, .radio (.startAdv (normalParams P s)) 0] } := by
  simp [State.idleStep, State.deq, State.qPop, hq, State.radio_given (P := P) (s := { s with q := rest }) hr,
    State.radio_given (rc := 0) (codes := codes), normalParams]

/-- The Advertising step at the end of the duration. -/
theorem State.advertisingStep_ended (P : Params) {s : State} (h : s.advDur.toNat ≤ s.elapsed s.stateT) :
    s.advertisingStep P = { s.radioLogged P .stopAdv with advState := .gap, stateT := s.now } := by
  simp [State.advertisingStep, h]

/-- A replacement with both calls answered 0. -/
theorem State.replacement_granted (P : Params) {s : State} {rc : Nat} {codes : List Nat}
    (hr : s.radioIn = rc :: 0 :: 0 :: codes) : s.replacement P =
      { s.replaced P with
        radioIn := codes
        trace := s.trace ++ loggedCall .stopAdv rc ++
          [.radio (.cfgAdvData (s.pairingData P)) 0, .radio (.startAdv (pairingParams P)) 0] } := by
  simp [State.replacement, State.radioLogged_given hr, State.radio_given (rc := 0), State.replaced]

/-- A replacement whose CFG_ADV_DATA is refused writes no register. -/
theorem State.replacement_configRefused (P : Params) {s : State} {rc0 rc : Nat} {codes : List Nat} (hrc : rc ≠ 0)
    (hr : s.radioIn = rc0 :: rc :: codes) : s.replacement P =
      { s with
        radioIn := codes
        trace := s.trace ++ loggedCall .stopAdv rc0 ++
          [.radio (.cfgAdvData (s.pairingData P)) rc, .warn (.radioConfigFailure rc)] } := by
  simp [State.replacement, State.radioLogged_given hr, State.radio_given (rc := rc), hrc, State.warn, State.emit]

/-- The session timeout with both answers given. -/
theorem State.timeout_given (P : Params) {s : State} {rc1 rc2 : Nat} {codes : List Nat}
    (hr : s.radioIn = rc1 :: rc2 :: codes) : s.timeout P =
      { s with
        mode := .normal, advState := .idle, radioIn := codes
        trace := s.trace ++ loggedCall .stopAdv rc1 ++ loggedCall (.startScan P.scanWindow) rc2 } := by
  simp [State.timeout, State.radioLogged_given (s := { s with mode := .normal, advState := .idle }) hr,
    State.radioLogged_given (rc := rc2) (codes := codes)]

/-- A tick of a session that goes on and owes a broadcast: the phase's bookkeeping, then a replacement. -/
theorem State.pairingTick_owed (P : Params) {s : State} (ht : s.elapsed s.pairT0 < tSession)
    (hd : (s.phaseStep P).pairDirty = true) : s.pairingTick P = (s.phaseStep P).replacement P := by
  rcases s.pairingTick_cases P with ⟨hlate, _⟩ | ⟨_, ⟨_, h⟩ | ⟨hdue, _⟩⟩
  · omega
  · exact h
  · simp [State.replacementDue, hd] at hdue

theorem State.elapsed_of_now_eq {s : State} {t : Word32} (h : s.now = t) : s.elapsed t = 0 := by
  simp [State.elapsed, h]

theorem State.elapsed_lt_of_now_eq {s : State} {t : Word32} {d : Nat} (h : s.now = t) (hd : 0 < d) :
    s.elapsed t < d := by
  rwa [State.elapsed_of_now_eq h]

/-- At the start of the Pairing phase the slot is the base id's. -/
theorem State.slotId_of_now_eq {s : State} (h : s.now = s.phaseT) : s.slotId = s.baseId := by
  simp [State.slotId, State.elapsed_of_now_eq h]

/-- Within the dwell the phase's bookkeeping does nothing (43_pairing R164). -/
theorem State.phaseStep_dwelling (P : Params) {s : State} (hp : s.pairPhase = .discovery)
    (ht : s.elapsed s.phaseT < tDiscovery) : s.phaseStep P = s := by
  simp [State.phaseStep, hp, Nat.not_le.mpr ht]

/-- Within a slot the phase's bookkeeping does nothing (43_pairing R165). -/
theorem State.phaseStep_sameSlot (P : Params) {s : State} (hp : s.pairPhase = .pairing) (hs : s.slotId = s.curId) :
    s.phaseStep P = s := by
  simp [State.phaseStep, hp, State.slotUpdate, hs]

/-- A new slot takes its id and starts PAIR_SEQ again (43_pairing R165). -/
theorem State.phaseStep_newSlot (P : Params) {s : State} (hp : s.pairPhase = .pairing) (hs : s.slotId ≠ s.curId) :
    s.phaseStep P = { s with curId := s.slotId, pairSeq := P.pairSeqInit, pairDirty := true } := by
  simp [State.phaseStep, hp, State.slotUpdate, hs]

/-! ### TICK (42_scheduler R140) -/

/-- The framers agree on all a tick depends on (00_scope R5). -/
structure SameTicking (P Q : Params) : Prop where
  mfrId : P.mfrId = Q.mfrId
  advFlags : P.advFlags = Q.advFlags
  advTypeNonconn : P.advTypeNonconn = Q.advTypeNonconn
  advAddrType : P.advAddrType = Q.advAddrType
  advChannelMap : P.advChannelMap = Q.advChannelMap
  advFilterPolicy : P.advFilterPolicy = Q.advFilterPolicy
  scanWindow : P.scanWindow = Q.scanWindow
  pairIntMin : P.pairIntMin = Q.pairIntMin
  pairIntMax : P.pairIntMax = Q.pairIntMax
  discoveryFrame : discoveryFrame P = discoveryFrame Q
  pairingFrame : pairingFrame P = pairingFrame Q
  pairSeqInit : P.pairSeqInit = Q.pairSeqInit
  pairSeqStep : P.pairSeqStep = Q.pairSeqStep
  radioCode : P.radioCode = Q.radioCode
  tReplace : min P.tReplace (2 ^ 32) = min Q.tReplace (2 ^ 32)

section Sufficient

variable {P Q : Params} (h : SameTicking P Q)
include h

theorem SameTicking.radio : State.radio P = State.radio Q := radio_eq_of_radioCode_eq h.radioCode

theorem SameTicking.radioLogged : State.radioLogged P = State.radioLogged Q :=
  radioLogged_eq_of_radioCode_eq h.radioCode

theorem SameTicking.adWrap : adWrap P = adWrap Q := by
  funext frame
  simp only [Machine.adWrap, h.mfrId, h.advFlags]

theorem SameTicking.normalParams : normalParams P = normalParams Q := by
  funext s
  simp only [Machine.normalParams, h.advTypeNonconn, h.advAddrType, h.advChannelMap, h.advFilterPolicy]

theorem SameTicking.pairingParams : pairingParams P = pairingParams Q := by
  simp only [Machine.pairingParams, h.pairIntMin, h.pairIntMax, h.advTypeNonconn, h.advAddrType, h.advChannelMap,
    h.advFilterPolicy]

theorem SameTicking.idleStep : State.idleStep P = State.idleStep Q := by
  funext s
  simp only [State.idleStep, h.radio, h.adWrap, h.normalParams]

theorem SameTicking.schedulerTick : State.schedulerTick P = State.schedulerTick Q := by
  funext s
  simp only [State.schedulerTick, State.advertisingStep, State.gapStep, h.idleStep, h.radioLogged]

theorem SameTicking.pairingData : State.pairingData P = State.pairingData Q := by
  funext s
  simp only [State.pairingData, h.discoveryFrame, h.pairingFrame]

theorem SameTicking.replacement : State.replacement P = State.replacement Q := by
  funext s
  simp only [State.replacement, State.replaced, h.pairingParams, h.pairingData, h.radio, h.radioLogged, h.pairSeqStep]

theorem SameTicking.phaseStep : State.phaseStep P = State.phaseStep Q := by
  funext s
  simp only [State.phaseStep, State.slotUpdate, h.pairSeqInit]

/-- No elapsed time reaches 2^32 (20_memory R55), so a T_REPLACE beyond it never falls due. -/
theorem SameTicking.replacementDue : State.replacementDue P = State.replacementDue Q := by
  funext s
  have hlt : s.elapsed s.lastAdvT < 2 ^ 32 := BitVec.isLt _
  have hdue := min_eq_min_iff_forall_lt.mp h.tReplace _ hlt
  simp only [State.replacementDue, State.expired, hdue]

theorem SameTicking.pairingTick : State.pairingTick P = State.pairingTick Q := by
  funext s
  simp only [State.pairingTick, State.timeout, h.radioLogged, h.scanWindow, h.phaseStep, h.replacementDue,
    h.replacement]

theorem SameTicking.tick : tick P = tick Q := by
  funext s
  simp only [Machine.tick, h.pairingTick, h.schedulerTick]

end Sufficient

/-! ### States in which a tick shows its parameters -/

/-- One command in the queue, with an empty frame, and a radio that answers 0 twice. -/
def serving : State := { ready with q := [⟨[], 0, 0⟩], radioIn := [0, 0] }

/-- A session at time 0 in the given phase that owes a broadcast, in the slot of its own id. -/
def broadcasting (phase : PairPhase) (key : Bytes4) (id gid : Half) (pseq : Byte) (codes : List Nat) : State :=
  { readyWith key with
    mode := .pairing, pairPhase := phase, baseId := id, curId := id, groupId := gid, pairSeq := pseq, pairDirty := true
    radioIn := codes }

/-- A session whose slot has just changed from id 1 to id 0, and a radio that refuses its advertisement data. -/
def newSlot : State := { broadcasting .pairing flatKey 0 0 0 [0, 1] with curId := 1 }

/-- A session whose time is over. -/
def sessionOver : State := { ready with mode := .pairing, now := 60000, radioIn := [0, 0] }

/-- A session in Discovery that owes no broadcast, d ms after the last one. -/
def quietFor (d : Word32) : State :=
  { ready with mode := .pairing, now := d, pairT0 := d, phaseT := d, radioIn := [0, 0, 0] }

@[simp] theorem broadcasting_phaseStep (P : Params) (phase : PairPhase) (key : Bytes4) (id gid : Half) (pseq : Byte)
    (codes : List Nat) :
    (broadcasting phase key id gid pseq codes).phaseStep P = broadcasting phase key id gid pseq codes := by
  cases phase with
  | discovery => exact State.phaseStep_dwelling P rfl (State.elapsed_lt_of_now_eq rfl (by decide))
  | pairing => exact State.phaseStep_sameSlot P rfl (State.slotId_of_now_eq rfl)

theorem newSlot_phaseStep (P : Params) : newSlot.phaseStep P = { newSlot with curId := 0, pairSeq := P.pairSeqInit } :=
  State.phaseStep_newSlot P rfl (by decide)

theorem quietFor_phaseStep (P : Params) (d : Word32) : (quietFor d).phaseStep P = quietFor d :=
  State.phaseStep_dwelling P rfl (State.elapsed_lt_of_now_eq rfl (by decide))

/-- In the quiet session a replacement is made, and uses up the radio's answers, exactly when T_REPLACE has passed. -/
theorem quietFor_pairingTick_radioIn (P : Params) (d : Word32) :
    ((quietFor d).pairingTick P).radioIn = [] ↔ P.tReplace ≤ d.toNat := by
  have hdue : (quietFor d).replacementDue P = true ↔ P.tReplace ≤ d.toNat := by
    simp [State.replacementDue, State.elapsed, quietFor, ready, State.reset, Registers.reset]
  have hlive : (quietFor d).elapsed (quietFor d).pairT0 < tSession := State.elapsed_lt_of_now_eq rfl (by decide)
  rcases (quietFor d).pairingTick_cases P with ⟨hlate, _⟩ | ⟨_, h⟩
  · omega
  · rw [quietFor_phaseStep] at h
    rcases h with ⟨hd, h⟩ | ⟨hd, h⟩
    · simp only [h, State.replacement_granted P (s := quietFor d) rfl, hdue.mp hd]
    · have hnot : ¬ P.tReplace ≤ d.toNat := by rw [← hdue, hd]; simp
      simp only [h, hnot, iff_false]
      exact List.cons_ne_nil 0 [0, 0]

/-! ### What two framers that tick alike agree on -/

/-- MFR_ID and ADV_FLAGS stand in every advertisement's data (30_encoding R66). -/
theorem mfrId_advFlags_eq_of_adWrap_eq {P Q : Params} {frame : List Byte} (hw : adWrap P frame = adWrap Q frame) :
    P.mfrId = Q.mfrId ∧ P.advFlags = Q.advFlags := by
  simp only [adWrap, List.cons_append, List.cons.injEq, and_true, true_and] at hw
  obtain ⟨hflags, hlo, hhi⟩ := hw
  exact ⟨by rw [← le16_loByte_hiByte P.mfrId, hlo, hhi, le16_loByte_hiByte], hflags⟩

section Necessary

variable {P Q : Params} (h : ∀ s, tick P s = tick Q s)
include h

theorem schedulerTick_eq_of_tick_eq {s : State} (hc : s.configured = true) (hm : s.mode = .normal) :
    s.schedulerTick P = s.schedulerTick Q := by
  have hs := h s
  rw [tick_normal P hc hm, tick_normal Q hc hm] at hs
  exact State.respond_left_inj.mp (Host.Outcome.next.inj hs)

theorem pairingTick_eq_of_tick_eq {s : State} (hc : s.configured = true) (hm : s.mode = .pairing) :
    s.pairingTick P = s.pairingTick Q := by
  have hs := h s
  rw [tick_pairing P hc hm, tick_pairing Q hc hm] at hs
  exact State.respond_left_inj.mp (Host.Outcome.next.inj hs)

/-- A served command shows the wrapping of its frame and NORMAL_PARAMS. -/
theorem served_eq_of_tick_eq : adWrap P [] = adWrap Q [] ∧ normalParams P serving = normalParams Q serving := by
  have hs : serving.idleStep P = serving.idleStep Q := schedulerTick_eq_of_tick_eq h (s := serving) rfl rfl
  rw [State.idleStep_served P rfl rfl, State.idleStep_served Q rfl rfl] at hs
  have ht := congrArg (fun t : State => t.trace) hs
  simpa [serving] using ht

/-- A broadcast in either phase shows its advertisement data, PAIRING_PARAMS and the next PAIR_SEQ. -/
theorem broadcast_eq_of_tick_eq (phase : PairPhase) (key : Bytes4) (id gid : Half) (pseq : Byte) :
    (broadcasting phase key id gid pseq [0, 0, 0]).pairingData P =
        (broadcasting phase key id gid pseq [0, 0, 0]).pairingData Q ∧
      pairingParams P = pairingParams Q ∧
      ((broadcasting phase key id gid pseq [0, 0, 0]).replaced P).pairSeq =
        ((broadcasting phase key id gid pseq [0, 0, 0]).replaced Q).pairSeq := by
  have hs := pairingTick_eq_of_tick_eq h (s := broadcasting phase key id gid pseq [0, 0, 0]) rfl rfl
  have hlive : (broadcasting phase key id gid pseq [0, 0, 0]).elapsed
      (broadcasting phase key id gid pseq [0, 0, 0]).pairT0 < tSession :=
    State.elapsed_lt_of_now_eq rfl (by decide)
  rw [State.pairingTick_owed P hlive (by rw [broadcasting_phaseStep]; rfl),
    State.pairingTick_owed Q hlive (by rw [broadcasting_phaseStep]; rfl), broadcasting_phaseStep,
    broadcasting_phaseStep, State.replacement_granted P rfl, State.replacement_granted Q rfl] at hs
  have ht := congrArg (fun t : State => t.trace) hs
  simp only [List.append_cancel_left_eq, List.cons.injEq, Event.radio.injEq, RadioCall.cfgAdvData.injEq,
    RadioCall.startAdv.injEq, and_true] at ht
  obtain ⟨hdata, hparams⟩ := ht
  have hseq := congrArg (fun t : State => t.pairSeq) hs
  exact ⟨hdata, hparams, hseq⟩

theorem discoveryFrame_eq_of_tick_eq : discoveryFrame P = discoveryFrame Q := by
  funext key id gid
  exact (broadcast_eq_of_tick_eq h .discovery key id gid 0).1

theorem pairingFrame_eq_of_tick_eq : pairingFrame P = pairingFrame Q := by
  funext key id gid pseq
  exact (broadcast_eq_of_tick_eq h .pairing key id gid pseq).1

theorem pairSeqStep_eq_of_tick_eq : P.pairSeqStep = Q.pairSeqStep := by
  funext pseq
  exact (broadcast_eq_of_tick_eq h .pairing flatKey 0 0 pseq).2.2

/-- A new slot whose first broadcast is refused shows PAIR_SEQ_INIT. -/
theorem pairSeqInit_eq_of_tick_eq : P.pairSeqInit = Q.pairSeqInit := by
  have hs := pairingTick_eq_of_tick_eq h (s := newSlot) rfl rfl
  rw [State.pairingTick_owed P (by decide) (by rw [newSlot_phaseStep]; rfl),
    State.pairingTick_owed Q (by decide) (by rw [newSlot_phaseStep]; rfl), newSlot_phaseStep, newSlot_phaseStep,
    State.replacement_configRefused P Nat.one_ne_zero rfl, State.replacement_configRefused Q Nat.one_ne_zero rfl] at hs
  exact congrArg (fun t : State => t.pairSeq) hs

theorem scanWindow_eq_of_tick_eq : P.scanWindow = Q.scanWindow := by
  have timedOut : ∀ R : Params, sessionOver.pairingTick R = sessionOver.timeout R := fun R => by
    have hover : sessionOver.expired sessionOver.pairT0 tSession = true := by decide
    simp [State.pairingTick, hover]
  have hs := pairingTick_eq_of_tick_eq h (s := sessionOver) rfl rfl
  rw [timedOut, timedOut, State.timeout_given P rfl, State.timeout_given Q rfl] at hs
  have ht := congrArg (fun t : State => t.trace) hs
  simpa [loggedCall] using ht

/-- The call that ends an advertisement shows the free codes. -/
theorem radioCode_eq_of_tick_eq : P.radioCode = Q.radioCode := by
  funext k
  have ended : ∀ R : Params, ((onAirFree k).schedulerTick R).trace = loggedCall .stopAdv (R.radioCode k) := by
    intro R
    have hs : (onAirFree k).schedulerTick R = (onAirFree k).advertisingStep R := rfl
    rw [hs, State.advertisingStep_ended R (Nat.zero_le _)]
    simp
  have hs := schedulerTick_eq_of_tick_eq h (s := onAirFree k) rfl rfl
  have ht := congrArg (fun t : State => t.trace) hs
  simp only [ended] at ht
  exact loggedCall_injective _ ht

theorem tReplace_eq_of_tick_eq : min P.tReplace (2 ^ 32) = min Q.tReplace (2 ^ 32) := by
  refine min_eq_min_iff_forall_lt.mpr fun d hd => ?_
  have hquiet := quietFor_pairingTick_radioIn P (BitVec.ofNat 32 d)
  rw [pairingTick_eq_of_tick_eq h rfl rfl, quietFor_pairingTick_radioIn, BitVec.toNat_ofNat, Nat.mod_eq_of_lt hd]
    at hquiet
  exact hquiet.symm

theorem sameTicking_of_tick_eq : SameTicking P Q := by
  obtain ⟨hwrap, hnormal⟩ := served_eq_of_tick_eq h
  obtain ⟨_, hpairing, _⟩ := broadcast_eq_of_tick_eq h .discovery flatKey 0 0 0
  obtain ⟨hmfr, hflags⟩ := mfrId_advFlags_eq_of_adWrap_eq hwrap
  simp only [normalParams, AdvParams.mk.injEq, true_and] at hnormal
  obtain ⟨htype, haddr, hmap, hfilter⟩ := hnormal
  simp only [pairingParams, AdvParams.mk.injEq] at hpairing
  obtain ⟨hmin, hmax, _⟩ := hpairing
  exact {
    mfrId := hmfr, advFlags := hflags, advTypeNonconn := htype, advAddrType := haddr, advChannelMap := hmap
    advFilterPolicy := hfilter, scanWindow := scanWindow_eq_of_tick_eq h, pairIntMin := hmin, pairIntMax := hmax
    discoveryFrame := discoveryFrame_eq_of_tick_eq h, pairingFrame := pairingFrame_eq_of_tick_eq h
    pairSeqInit := pairSeqInit_eq_of_tick_eq h, pairSeqStep := pairSeqStep_eq_of_tick_eq h
    radioCode := radioCode_eq_of_tick_eq h, tReplace := tReplace_eq_of_tick_eq h }

end Necessary

/-- TICK tells two framers apart by what `SameTicking` lists and by nothing else. -/
theorem tick_eq_iff (P Q : Params) : (∀ s, tick P s = tick Q s) ↔ SameTicking P Q :=
  ⟨sameTicking_of_tick_eq, fun h s => congrFun h.tick s⟩

theorem sameTicking_iff (P Q : Params) : SameTicking P Q ↔
    P.mfrId = Q.mfrId ∧ P.advFlags = Q.advFlags ∧ P.advTypeNonconn = Q.advTypeNonconn ∧
      P.advAddrType = Q.advAddrType ∧ P.advChannelMap = Q.advChannelMap ∧ P.advFilterPolicy = Q.advFilterPolicy ∧
      P.scanWindow = Q.scanWindow ∧ P.pairIntMin = Q.pairIntMin ∧ P.pairIntMax = Q.pairIntMax ∧
      discoveryFrame P = discoveryFrame Q ∧ pairingFrame P = pairingFrame Q ∧ P.pairSeqInit = Q.pairSeqInit ∧
      P.pairSeqStep = Q.pairSeqStep ∧ P.radioCode = Q.radioCode ∧
      min P.tReplace (2 ^ 32) = min Q.tReplace (2 ^ 32) :=
  ⟨fun h => ⟨h.mfrId, h.advFlags, h.advTypeNonconn, h.advAddrType, h.advChannelMap, h.advFilterPolicy, h.scanWindow,
      h.pairIntMin, h.pairIntMax, h.discoveryFrame, h.pairingFrame, h.pairSeqInit, h.pairSeqStep, h.radioCode,
      h.tReplace⟩,
    fun ⟨hmfr, hflags, htype, haddr, hmap, hfilter, hscan, hmin, hmax, hdisc, hpair, hinit, hstep, hcode, hrepl⟩ =>
      ⟨hmfr, hflags, htype, haddr, hmap, hfilter, hscan, hmin, hmax, hdisc, hpair, hinit, hstep, hcode, hrepl⟩⟩

/-! ### The statement -/

/-- Settles O33: each operation's lemma over two framers, at Q = `Config.framer`. -/
theorem meaningsDependOnTheirParameters : Obligations.MeaningsDependOnTheirParameters := by
  refine ⟨fun P => ⟨?frames, ?enq, ?setup, ?pair, ?tick⟩, fun P Q hP hQ =>
    ⟨gencmd_eq_iff hP hQ, sctrl_eq_iff hP hQ, enqraw_eq_iff hP hQ, freset_eq_iff hP hQ⟩⟩
  case frames =>
    intro hks hpre hidx hlen hbyte
    have h : SameFraming P Config.framer := ⟨hks, hpre, hidx, hlen, hbyte⟩
    refine ⟨fun ct fwd rsv tid payload s => ?_, fun tid light s => ?_, fun s hP hF => ⟨?_, ?_⟩⟩
    · rw [h.gencmd, exec_gencmd]
    · rw [h.sctrl, exec_sctrl]
    · intro ct fwd rsv tid payload
      rw [h.enqraw hP hF, exec_enqraw]
    · intro lid
      rw [h.freset hP hF, exec_freset]
  case enq =>
    intro frame s hP hF
    rw [enq_eq_of_cap_le hP hF, exec_enq]
  case setup => simpa only [exec_setup] using setup_eq_iff P Config.framer
  case pair => simpa only [exec_pair] using pair_eq_iff P Config.framer
  case tick => simpa only [exec_tick] using (tick_eq_iff P Config.framer).trans (sameTicking_iff P Config.framer)

end Sys2Proof.Machine
end

section
/-! What the decoder reads is an operation a format can spell: the length byte bounds the variable-length operand
(30_encoding R71 to R73, R81). -/

namespace Sys2Proof

/-- An operand whose length stands in a length byte has at most 255 bytes. -/
theorem wellFormed_of_lengthByte {i : Instr} {n : Byte} (h : i.tail.length = n.toNat) : i.WellFormed := by
  have hn := n.isLt
  simp only [Instr.WellFormed, Instr.wellFormed, decide_eq_true_eq]
  omega

theorem tail_length_le_of_wellFormed {i : Instr} (h : i.WellFormed) : i.tail.length ≤ 255 :=
  of_decide_eq_true h

theorem decodeS_wellFormed {op : Byte} {operands : List Byte} {i : Instr} (h : decodeS op operands = .instr i) :
    i.WellFormed := by
  unfold decodeS at h
  split at h
  · obtain rfl := Decoded.instr.inj h; rfl
  · cases h

theorem decodeZ_wellFormed {op : Byte} {j : Instr} (hj : j.WellFormed) {operands : List Byte} {i : Instr}
    (h : decodeZ op j operands = .instr i) : i.WellFormed := by
  cases operands with
  | nil => obtain rfl := Decoded.instr.inj h; exact hj
  | cons _ _ => cases h

theorem decodeG_wellFormed {op : Byte} {mk : BitVec 3 → Bool → BitVec 4 → Half → List Byte → Instr}
    (hmk : ∀ ct fwd rsv tid payload, (mk ct fwd rsv tid payload).tail = payload) {operands : List Byte} {i : Instr}
    (h : decodeG op mk operands = .instr i) : i.WellFormed := by
  unfold decodeG at h
  split at h
  · split at h
    · rename_i hn
      obtain rfl := Decoded.instr.inj h
      exact wellFormed_of_lengthByte (by rw [hmk]; exact hn)
    · cases h
  · cases h

theorem decodeC_wellFormed {op : Byte} {operands : List Byte} {i : Instr} (h : decodeC op operands = .instr i) :
    i.WellFormed := by
  unfold decodeC at h
  split at h
  · split at h
    · rename_i hn
      obtain rfl := Decoded.instr.inj h
      exact wellFormed_of_lengthByte hn
    · cases h
  · cases h

theorem decodeF_wellFormed {op : Byte} {operands : List Byte} {i : Instr} (h : decodeF op operands = .instr i) :
    i.WellFormed := by
  unfold decodeF at h
  split at h
  · split at h
    · rename_i hn
      obtain rfl := Decoded.instr.inj h
      exact wellFormed_of_lengthByte hn
    · cases h
  · cases h

theorem decodeP_wellFormed {op : Byte} {operands : List Byte} {i : Instr} (h : decodeP op operands = .instr i) :
    i.WellFormed := by
  unfold decodeP at h
  split at h
  · obtain rfl := Decoded.instr.inj h; rfl
  · cases h

theorem decodeI_wellFormed {op : Byte} {operands : List Byte} {i : Instr} (h : decodeI op operands = .instr i) :
    i.WellFormed := by
  unfold decodeI at h
  split at h
  · obtain rfl := Decoded.instr.inj h; rfl
  · cases h

/-- A test of byte 0 reads only what one of its two branches reads. -/
theorem wellFormed_of_ite {c : Prop} [Decidable c] {d e : Decoded} {i : Instr} (hd : d = .instr i → i.WellFormed)
    (he : e = .instr i → i.WellFormed) : (if c then d else e) = .instr i → i.WellFormed := by
  split
  · exact hd
  · exact he

/-- One line per row of the opcode map (30_encoding R78), in its order; a reserved opcode reads no operation (R79). -/
theorem decodeOp_wellFormed {op : Byte} {operands : List Byte} {i : Instr} (h : decodeOp op operands = .instr i) :
    i.WellFormed := by
  revert h
  unfold decodeOp
  refine wellFormed_of_ite decodeS_wellFormed ?_
  refine wellFormed_of_ite (decodeZ_wellFormed rfl) ?_
  refine wellFormed_of_ite (decodeG_wellFormed fun _ _ _ _ _ => rfl) ?_
  refine wellFormed_of_ite decodeC_wellFormed ?_
  refine wellFormed_of_ite decodeF_wellFormed ?_
  refine wellFormed_of_ite (decodeG_wellFormed fun _ _ _ _ _ => rfl) ?_
  refine wellFormed_of_ite (decodeZ_wellFormed rfl) ?_
  refine wellFormed_of_ite (decodeZ_wellFormed rfl) ?_
  refine wellFormed_of_ite (decodeZ_wellFormed rfl) ?_
  refine wellFormed_of_ite decodeP_wellFormed ?_
  refine wellFormed_of_ite decodeI_wellFormed ?_
  exact fun h => nomatch h

end Sys2Proof
end

section
/-! The invariants of the operation boundary, kept by every step, and who writes MODE, the configuration and SEQ
(10_state R12 to R20, R35, R36). -/

namespace Sys2Proof.Machine

/-! ### The reset state (10_state R36) -/

/-- Settles O8: each register named has its reset value by definition. -/
theorem resetStateHoldsTheResetTable : Obligations.ResetStateHoldsTheResetTable :=
  ⟨rfl, rfl, rfl, rfl, rfl, rfl⟩

/-- The invariants speak of registers only. -/
theorem State.Inv.of_toRegisters_eq {P : Params} {s t : State} (h : s.Inv P) (ht : t.toRegisters = s.toRegisters) :
    t.Inv P := by
  obtain ⟨r, p⟩ := t
  obtain rfl : r = s.toRegisters := ht
  exact { h with }

/-- After reset the framer is unconfigured with an empty queue, and every FIFO holds the 100 entries of CAP. -/
theorem State.reset_inv (P : Params) : State.reset.Inv P where
  seq_range := by decide
  queue_within_cap := Nat.zero_le _
  cap_within_depth := Nat.le_add_left 100 P.qdepthExtra
  pairing_idle _ := rfl
  unconfigured _ := ⟨rfl, rfl, rfl, rfl⟩
  entries _ hc := absurd hc List.not_mem_nil
  discovery hm _ := nomatch hm

/-- Settles O51: `State.reset_inv` at the framer's own parameters. -/
theorem resetMeetsTheInvariants : Obligations.ResetMeetsTheInvariants := State.reset_inv Config.framer

/-! ### Every step keeps the invariants (10_state R35) -/

/-- The invariants of the entries are kept where one that meets them joins at the back (20_memory R41). -/
theorem State.Inv.entries_append {P : Params} {s : State} (h : s.Inv P) {frame : List Byte}
    (hf : frame.length ≤ frameMax) (t : Word32) :
    ∀ c ∈ s.q ++ [⟨frame, t, 0⟩], c.frame.length ≤ frameMax ∧ c.retry = 0 := by
  intro c hc
  rcases List.mem_append.mp hc with hold | hnew
  · exact h.entries c hold
  · obtain rfl := List.mem_singleton.mp hnew
    exact ⟨hf, rfl⟩

/-- Whatever an operation that a format can spell does to the registers keeps the invariants. Only a frame of the
host's own needs the format: its length byte keeps the entry within FRAME_MAX (30_encoding R73). -/
theorem State.Inv.of_registerEffect {i : Instr} {s t : State} (h : s.Inv Config.framer) (hi : i.WellFormed)
    (e : RegisterEffect i s t.toRegisters) : t.Inv Config.framer := by
  obtain ⟨r, p⟩ := t
  cases e with
  | same => exact { h with }
  | frame hc _ =>
    exact { h with
      seq_range := seqSucc_range h.seq_range
      unconfigured := by simp [hc] }
  | enqueue frame hc hi' hl =>
    subst hi'
    have hf : frame.length ≤ frameMax := tail_length_le_of_wellFormed hi
    exact { h with
      queue_within_cap := by simpa using hl
      unconfigured := by simp [hc]
      entries := h.entries_append hf s.now }
  | frameEnqueue frame hc _ hl hf =>
    exact { h with
      seq_range := seqSucc_range h.seq_range
      queue_within_cap := by simpa using hl
      unconfigured := by simp [hc]
      entries := h.entries_append hf s.now }
  | clear hc _ =>
    exact { h with
      queue_within_cap := Nat.zero_le _
      unconfigured := by simp [hc]
      entries := by simp }
  | schedule a w hc _ hm =>
    exact { h with
      pairing_idle := by simp [hm]
      unconfigured := by simp [hc] }
  | serve a w hc _ hm _ =>
    exact { h with
      queue_within_cap := le_trans (by simp) h.queue_within_cap
      pairing_idle := by simp [hm]
      unconfigured := by simp [hc]
      entries := fun c hq => h.entries c (List.mem_of_mem_tail hq) }
  | timeout hc _ _ _ =>
    exact { h with
      pairing_idle := fun _ => rfl
      unconfigured := by simp [hc]
      discovery := fun hp => nomatch hp }
  | session ph pt ci ps la pd hc _ _ hd =>
    exact { h with
      unconfigured := by simp [hc]
      discovery := fun hp hph => by
        obtain ⟨hph', rfl, rfl⟩ := hd hph
        exact h.discovery hp hph' }
  | openSession lid gid hc _ =>
    exact { h with
      queue_within_cap := Nat.zero_le _
      pairing_idle := fun _ => rfl
      unconfigured := by simp [hc]
      entries := by simp
      discovery := fun _ _ => ⟨rfl, rfl⟩ }
  | configure key cap intMin intMax advDur advGap _ _ hd =>
    exact { h with
      queue_within_cap := Nat.zero_le _
      cap_within_depth := hd
      pairing_idle := fun _ => rfl
      unconfigured := fun hu => nomatch hu
      entries := by simp }

/-- Everything a step that answers a next state can be: one that writes no register (nothing presented, or a sequence
that is no operation), RESET, or an operation that a format can spell, run where its input is taken and NOW sampled. -/
theorem step_next {s t : State} (h : step s = .next t) :
    t.toRegisters = s.toRegisters ∨ t.toRegisters = Registers.reset ∨
    ∃ i rest now, i.WellFormed ∧ exec i (s.accept rest now) = .next t := by
  unfold step at h
  split at h
  · obtain rfl := Host.Outcome.next.inj h
    exact .inl rfl
  · obtain rfl := Host.Outcome.next.inj h
    exact .inr (.inl rfl)
  · rename_i op operands now rest _
    cases hd : decodeOp op operands with
    | instr i =>
      rw [hd] at h
      exact .inr (.inr ⟨i, rest, now, decodeOp_wellFormed hd, h⟩)
    | illegalOp op' =>
      rw [hd] at h
      obtain rfl := Host.Outcome.next.inj h
      exact .inl rfl
    | badLength op' =>
      rw [hd] at h
      obtain rfl := Host.Outcome.next.inj h
      exact .inl rfl

/-- Settles O50, by what a step can be (`step_next`) and what an operation can do to the registers. -/
theorem stepKeepsTheInvariants : Obligations.StepKeepsTheInvariants := by
  intro s t hs hstep
  rcases step_next hstep with hkept | hreset | ⟨i, rest, now, hi, hexec⟩
  · exact hs.of_toRegisters_eq hkept
  · exact (State.reset_inv Config.framer).of_toRegisters_eq hreset
  · have haccepted : (s.accept rest now).Inv Config.framer := hs.of_toRegisters_eq rfl
    exact haccepted.of_registerEffect hi (exec_registers hexec)

/-! ### Who writes MODE (10_state R20) -/

/-- MODE is written by the session's timeout and by PAIR, and both leave Idle (43_pairing R160, R163). -/
theorem RegisterEffect.mode_writers {i : Instr} {s : State} {r : Registers} (e : RegisterEffect i s r)
    (hne : r.mode ≠ s.mode) : r.advState = .idle ∧
      ((r.mode = .pairing ∧ ∃ lid gid, i = .pair lid gid) ∨
       (r.mode = .normal ∧ i = .tick ∧ tSession ≤ s.elapsed s.pairT0)) := by
  cases e
  case timeout _ hi _ he => exact ⟨rfl, .inr ⟨rfl, hi, he⟩⟩
  case openSession lid gid _ hi => exact ⟨rfl, .inl ⟨rfl, lid, gid, hi⟩⟩
  all_goals exact absurd rfl hne

/-- Settles O54: the writers of MODE among the cases of `RegisterEffect`. -/
theorem modeChangesOnlyInPairAndTimeout : Obligations.ModeChangesOnlyInPairAndTimeout :=
  fun _ _ _ hexec hne => (exec_registers hexec).mode_writers hne

/-! ### Who writes the configuration and SEQ (10_state R12 to R18) -/

/-- An operation other than SETUP keeps the configuration registers (10_state R12 to R17). -/
theorem RegisterEffect.configuration_kept {i : Instr} {s : State} {r : Registers} (e : RegisterEffect i s r)
    (hne : ∀ key cap n x d g, i ≠ .setup key cap n x d g) :
    r.meshKey = s.meshKey ∧ r.cap = s.cap ∧ r.advIntMin = s.advIntMin ∧ r.advIntMax = s.advIntMax ∧
      r.advDur = s.advDur ∧ r.advGap = s.advGap ∧ r.configured = s.configured := by
  cases e
  case configure hi _ _ => exact absurd hi (hne _ _ _ _ _ _)
  all_goals exact ⟨rfl, rfl, rfl, rfl, rfl, rfl, rfl⟩

/-- CONFIGURED is set by SETUP and cleared by no operation (10_state R17). -/
theorem RegisterEffect.configured_kept {i : Instr} {s : State} {r : Registers} (e : RegisterEffect i s r)
    (hc : s.configured = true) : r.configured = true := by
  cases e
  case configure => rfl
  all_goals exact hc

/-- SEQ is advanced by the operations that generate a frame and written by no other (10_state R18). -/
theorem RegisterEffect.seq_writers {i : Instr} {s : State} {r : Registers} (e : RegisterEffect i s r) :
    r.seq = s.seq ∨ (r.seq = seqSucc s.seq ∧ i.opcode ∈ [opGencmd, opSctrl, opEnqraw, opFreset]) := by
  cases e
  case frame _ hi => exact .inr ⟨rfl, hi⟩
  case frameEnqueue frame _ hi _ _ =>
    exact .inr ⟨rfl, List.mem_cons_of_mem opGencmd (List.mem_cons_of_mem opSctrl hi)⟩
  all_goals exact .inl rfl

/-- Settles O55: the writers of the configuration, CONFIGURED and SEQ among the cases of `RegisterEffect`. -/
theorem configurationAndSequenceWriters : Obligations.ConfigurationAndSequenceWriters := fun _ _ _ hexec =>
  have effect := exec_registers hexec
  ⟨effect.configuration_kept, effect.configured_kept, effect.seq_writers⟩

end Sys2Proof.Machine
end

section
/-! How an operation ends: it answers once, or the FIFO it pushes to is physically full; and what a step takes from the
ports (20_memory R41, R50 to R56, 60_exceptions R240). -/

namespace Sys2Proof.Machine

/-! ### How an operation ends (20_memory R50, R51, R56) -/

/-- Everything an operation begun in `s` can answer: a next state, its response given after radio calls of at
most 31 bytes and warnings only; or the fault of QPush, where CAP exceeds what the FIFO holds (log 10). -/
inductive Completion (P : Params) (s : State) : Result → Prop
  /-- The operation reached `u` and answered. -/
  | answered {u : State} {status : Status} {data : List Byte} (h : s.Outputs Event.inTick u) :
      Completion P s (.next (u.respond status data))
  /-- QPush found the FIFO physically full. -/
  | overflow (h : qdepthMax P < s.cap.toNat) : Completion P s (.fault .fifoOverflow)

/-- An operation turned away answers after its one warning. -/
theorem Completion.reject (P : Params) (s : State) (w : Warning) (status : Status) :
    Completion P s (.next (s.reject w status)) :=
  .answered (State.outputs_emit rfl s)

/-- An operand test turns the operation away or lets the rest of it answer (44_host_ops R206). -/
theorem Completion.checked {P : Params} {s : State} {c : Prop} [Decidable c] {r : Result} (w : Warning)
    (status : Status) (hr : Completion P s r) : Completion P s (if c then .next (s.reject w status) else r) := by
  split
  · exact .reject ..
  · exact hr

/-- What has gone out before an operation's last part is no response, so the part's answer is the operation's. -/
theorem Completion.after {P : Params} {s u : State} {r : Result} (h : s.Outputs Event.inTick u) (hcap : u.cap = s.cap)
    (hr : Completion P u r) : Completion P s r := by
  cases hr with
  | answered h' => exact .answered (h.trans h')
  | overflow hd => exact .overflow (hcap ▸ hd)

/-- The gate answers by itself or lets the body answer (44_host_ops R205). -/
theorem Completion.gated {P : Params} {s : State} {r : Result} (op : Byte) (hr : Completion P s r) :
    Completion P s (gated op s r) := by
  cases hc : s.configured with
  | false => rw [gated_unconfigured hc]; exact .reject ..
  | true => rw [gated_configured hc]; exact hr

/-- The body of ENQ answers on a full queue and with room; it overflows only where CAP exceeds the FIFO's depth
(20_memory R41, 41_queue R120). -/
theorem enqBody_completion (P : Params) (frame : List Byte) (s : State) : Completion P s (enqBody P frame s) := by
  by_cases hfull : s.cap.toNat ≤ s.q.length
  · rw [enqBody_full hfull]; exact .reject ..
  · by_cases hdepth : s.cap.toNat ≤ qdepthMax P
    · rw [enqBody_room (by omega) hdepth]; exact .answered (State.outputs_of_ports rfl)
    · simp only [enqBody, State.qLen, hfull, if_false]
      split
      · rename_i u hpush
        obtain ⟨_, rfl⟩ := State.qPush_eq_some.mp hpush
        exact .answered (State.outputs_of_ports rfl)
      · exact .overflow (by omega)

/-- A generated frame goes out as response data. -/
theorem Completion.generated (P : Params) (ct : BitVec 3) (tid : Half) (payload : List Byte) (fwd : Bool) (s : State)
    (data : List Byte) : Completion P s (.next ((s.genFrame P ct tid payload fwd).2.respond .ok data)) :=
  .answered (State.outputs_of_ports rfl)

/-- A generated frame is given to the body of ENQ; generating it writes SEQ only (40_codec R97). -/
theorem Completion.enqueued (P : Params) (ct : BitVec 3) (tid : Half) (payload : List Byte) (fwd : Bool) (s : State)
    (frame : List Byte) : Completion P s (enqBody P frame (s.genFrame P ct tid payload fwd).2) :=
  .after (u := (s.genFrame P ct tid payload fwd).2) (State.outputs_of_ports rfl) rfl (enqBody_completion ..)

theorem gencmd_completion (P : Params) (ct : BitVec 3) (fwd : Bool) (rsv : BitVec 4) (tid : Half) (payload : List Byte)
    (s : State) : Completion P s (gencmd P ct fwd rsv tid payload s) :=
  .gated _ (.checked _ _ (.checked _ _ (.generated ..)))

theorem sctrl_completion (P : Params) (tid : Half) (light : List Byte) (s : State) :
    Completion P s (sctrl P tid light s) :=
  .gated _ (.checked _ _ (.checked _ _ (.generated ..)))

theorem enqraw_completion (P : Params) (ct : BitVec 3) (fwd : Bool) (rsv : BitVec 4) (tid : Half) (payload : List Byte)
    (s : State) : Completion P s (enqraw P ct fwd rsv tid payload s) :=
  .gated _ (.checked _ _ (.checked _ _ (.enqueued ..)))

theorem freset_completion (P : Params) (lid : Half) (s : State) : Completion P s (freset P lid s) :=
  .gated _ (.checked _ _ (.enqueued ..))

/-- SETUP's one radio call, where an advertisement runs, is STOP_ADV (44_host_ops R200). -/
theorem setup_completion (P : Params) (key : Bytes4) (cap intMin intMax : Half) (advDur advGap : Word32) (s : State) :
    Completion P s (setup P key cap intMin intMax advDur advGap s) := by
  unfold setup
  cases s.mode with
  | pairing => exact .reject ..
  | normal =>
    refine .checked _ _ ?_
    cases s.advState with
    | advertising =>
      have hstop := State.outputs_radioLogged (ok := Event.inTick) P .stopAdv s (fun _ => rfl) (fun _ => rfl)
      exact .answered (hstop.trans (State.outputs_of_ports rfl))
    | idle => exact .answered (State.outputs_of_ports rfl)
    | gap => exact .answered (State.outputs_of_ports rfl)

/-- PAIR calls STOP_SCAN and STOP_ADV, whose failures are logged (43_pairing R160). -/
theorem pair_completion (P : Params) (lid gid : Half) (s : State) : Completion P s (pair P lid gid s) :=
  have hscan := State.outputs_radioLogged (ok := Event.inTick) P .stopScan s (fun _ => rfl) (fun _ => rfl)
  have hadv := hscan.trans (State.outputs_radioLogged P .stopAdv _ (fun _ => rfl) (fun _ => rfl))
  .gated _ (.answered (hadv.trans (State.outputs_of_ports rfl)))

/-- What a tick of the session sends, the timeout's START_SCAN included (43_pairing R162, R163). -/
theorem State.pairingTick_sends (P : Params) (s : State) : s.Outputs Event.inTick (s.pairingTick P) := by
  rcases s.pairingTick_cases P with ⟨_, htimeout⟩ | ⟨hlive, _⟩
  · rw [htimeout]; exact s.timeout_outputs P
  · exact (s.pairingTick_outputs P hlive).mono fun _ => Event.inTick_of_noScan

/-- TICK answers OK after what the session's or the scheduler's tick has sent (42_scheduler R140). -/
theorem tick_completion (P : Params) (s : State) : Completion P s (tick P s) := by
  refine .gated _ (.answered ?_)
  cases s.mode with
  | pairing => exact s.pairingTick_sends P
  | normal => exact (s.schedulerTick_outputs P).mono fun _ => Event.inTick_of_noScan

/-- How any operation ends, from any state. -/
theorem exec_completion (i : Instr) (s : State) : Completion Config.framer s (exec i s) := by
  cases i with
  | setup key cap intMin intMax advDur advGap => exact setup_completion ..
  | tick => exact tick_completion ..
  | gencmd ct fwd rsv tid payload => exact gencmd_completion ..
  | sctrl tid light => exact sctrl_completion ..
  | enq frame => exact .gated _ (enqBody_completion ..)
  | enqraw ct fwd rsv tid payload => exact enqraw_completion ..
  | clr => exact .gated _ (.answered (State.outputs_of_ports rfl))
  | qsize => exact .gated _ (.answered (.refl _ s))
  | qempty => exact .gated _ (.answered (.refl _ s))
  | pair lid gid => exact pair_completion ..
  | freset lid => exact freset_completion ..

/-! ### One response, the last event (20_memory R50, R51) -/

theorem Event.inTick_iff (e : Event) : e.inTick = true ↔ e.isResponse = false ∧ e.withinRadioLimit = true := by
  simp [Event.inTick]

theorem Completion.one_response {P : Params} {s t : State} (h : Completion P s (.next t)) :
    ∃ (evs : List Event) (r : Response), t.trace = s.trace ++ evs ++ [.rsp r] ∧
      ∀ e ∈ evs, e.isResponse = false ∧ e.withinRadioLimit = true := by
  cases h with
  | @answered u status data hout =>
    obtain ⟨_, _, evs, htrace, hok⟩ := hout
    exact ⟨evs, ⟨status, data⟩, by rw [State.respond_trace, htrace], fun e he => e.inTick_iff.mp (hok e he)⟩

/-- Settles O53, by how any operation ends (`exec_completion`). -/
theorem exactlyOneResponseEach : Obligations.ExactlyOneResponseEach := fun i s _ hexec =>
  (hexec ▸ exec_completion i s).one_response

/-! ### What a step takes from the ports (20_memory R51, R53, R54) -/

theorem step_idle {s : State} (h : s.pending = []) : step s = .next s := by
  simp [step, h]

theorem step_reset {s : State} {rest : List HostInput} (h : s.pending = .reset :: rest) :
    step s = .next (s.accept rest s.now).takeReset := by
  simp [step, h]

theorem step_op {s : State} {op : Byte} {operands : List Byte} {now : Word32} {rest : List HostInput}
    (h : s.pending = .op op operands now :: rest) : step s = perform (decodeOp op operands) (s.accept rest now) := by
  simp [step, h]

/-- An operation that `decode` reads is what `decodeOp`, which the step runs, reads. -/
theorem decodeOp_of_decode {op : Byte} {operands : List Byte} {i : Instr} (h : decode (op :: operands) = some i) :
    decodeOp op operands = .instr i := by
  simp only [decode] at h
  cases hd : decodeOp op operands with
  | instr j => rw [hd] at h; exact congrArg Decoded.instr (Option.some.inj h)
  | illegalOp _ => rw [hd] at h; cases h
  | badLength _ => rw [hd] at h; cases h

/-- Settles O6: what is presented, `step_op` performs as decoded, and an empty port keeps the state. -/
theorem stepRunsTheDecodedOperation : Obligations.StepRunsTheDecodedOperation := by
  refine ⟨fun op operands t rest i s hpending hdecode _ => ?_, fun s => step_idle⟩
  rw [step_op hpending, decodeOp_of_decode hdecode]
  rfl

/-! ### No step stops (20_memory R56, 60_exceptions R240, 70_reset R282) -/

/-- Where CAP is within the FIFO's depth, an operation cannot overflow the FIFO, and nothing else stops it. -/
theorem Completion.answers {P : Params} {s : State} {r : Result} (h : Completion P s r)
    (hcap : s.cap.toNat ≤ qdepthMax P) : ∃ t, r = .next t := by
  cases h with
  | answered => exact ⟨_, rfl⟩
  | overflow hdepth => omega

/-- A sequence that is no operation is answered by the framer itself (44_host_ops R204, R206). -/
theorem perform_answers (d : Decoded) {s : State} (h : s.cap.toNat ≤ qdepthMax Config.framer) :
    ∃ t, perform d s = .next t := by
  cases d with
  | instr i => exact (exec_completion i s).answers h
  | illegalOp op => exact ⟨_, rfl⟩
  | badLength op => exact ⟨_, rfl⟩

/-- Settles O52, by the case of what is presented; of the invariants only CAP within the FIFO's depth counts. -/
theorem noStepEverStops : Obligations.NoStepEverStops := by
  intro s hs
  match hp : s.pending with
  | [] => exact ⟨_, step_idle hp⟩
  | .reset :: rest => exact ⟨_, step_reset hp⟩
  | .op op operands now :: rest =>
    rw [step_op hp]
    exact perform_answers _ hs.cap_within_depth

/-! ### Time and the radio (20_memory R50, R55) -/

/-- Settles O10: the subtraction of 32-bit words is the subtraction mod 2^32. -/
theorem elapsedTimeIsModular : Obligations.ElapsedTimeIsModular := by
  intro s t
  rw [State.elapsed, BitVec.toNat_sub]
  congr 1
  have ht : t.toNat < 2 ^ 32 := t.isLt
  omega

theorem State.radio_free {P : Params} {call : RadioCall} {s : State} (h : s.radioIn = []) :
    s.radio P call = (P.radioCode s.radioFree,
      { s with radioFree := s.radioFree + 1, trace := s.trace ++ [.radio call (P.radioCode s.radioFree)] }) := by
  simp [State.radio, State.nextCode, State.drawCode, State.emit, h]

/-- Settles O11: with a code given and with none left. -/
theorem radioCallDrawsOneCode : Obligations.RadioCallDrawsOneCode := fun _ _ _ =>
  ⟨fun _ _ => State.radio_given, State.radio_free⟩

end Sys2Proof.Machine
end

section
/-! The encoding and the decoder undo each other, and the length of a sequence decides whether it is an operation
(30_encoding R68 to R81). -/

namespace Sys2Proof

/-! ### The opcode map (30_encoding R78): which format reads the operands of each opcode -/

@[simp] theorem decodeOp_opSetup (operands : List Byte) : decodeOp opSetup operands = decodeS opSetup operands := rfl
@[simp] theorem decodeOp_opTick (operands : List Byte) : decodeOp opTick operands = decodeZ opTick .tick operands := rfl
@[simp] theorem decodeOp_opGencmd (operands : List Byte) :
    decodeOp opGencmd operands = decodeG opGencmd .gencmd operands := rfl
@[simp] theorem decodeOp_opSctrl (operands : List Byte) : decodeOp opSctrl operands = decodeC opSctrl operands := rfl
@[simp] theorem decodeOp_opEnq (operands : List Byte) : decodeOp opEnq operands = decodeF opEnq operands := rfl
@[simp] theorem decodeOp_opEnqraw (operands : List Byte) :
    decodeOp opEnqraw operands = decodeG opEnqraw .enqraw operands := rfl
@[simp] theorem decodeOp_opClr (operands : List Byte) : decodeOp opClr operands = decodeZ opClr .clr operands := rfl
@[simp] theorem decodeOp_opQsize (operands : List Byte) :
    decodeOp opQsize operands = decodeZ opQsize .qsize operands := rfl
@[simp] theorem decodeOp_opQempty (operands : List Byte) :
    decodeOp opQempty operands = decodeZ opQempty .qempty operands := rfl
@[simp] theorem decodeOp_opPair (operands : List Byte) : decodeOp opPair operands = decodeP opPair operands := rfl
@[simp] theorem decodeOp_opFreset (operands : List Byte) :
    decodeOp opFreset operands = decodeI opFreset operands := rfl

/-- Every other byte is reserved (30_encoding R79). -/
theorem decodeOp_reserved {op : Byte} (h : op ∉ opcodes) (operands : List Byte) :
    decodeOp op operands = .illegalOp op := by
  simp only [opcodes, List.mem_cons, List.not_mem_nil, or_false, not_or] at h
  simp [decodeOp, h]

/-- What `decodeOp` reads, `decode` reads. -/
theorem decode_of_decodeOp {op : Byte} {operands : List Byte} {i : Instr} (h : decodeOp op operands = .instr i) :
    decode (op :: operands) = some i := by
  simp [decode, h]

/-! ### An encoded operation is read back (30_encoding R69 to R75) -/

/-- Format G reads its fields back where the length byte spells the payload's length. -/
theorem decodeG_fields (op : Byte) (mk : BitVec 3 → Bool → BitVec 4 → Half → List Byte → Instr) (ct : BitVec 3)
    (fwd : Bool) (rsv : BitVec 4) (tid : Half) {n : Byte} {payload : List Byte} (h : payload.length = n.toNat) :
    decodeG op mk (gflags ct fwd rsv :: loByte tid :: hiByte tid :: n :: payload) =
      .instr (mk ct fwd rsv tid payload) := by
  obtain ⟨hct, hfwd, hrsv⟩ := gflags_fields ct fwd rsv
  simp [decodeG, h, hct, hfwd, hrsv]

theorem decodeOp_operandBytes {i : Instr} (h : i.WellFormed) : decodeOp i.opcode i.operandBytes = .instr i := by
  have hn : i.tail.length = (BitVec.ofNat 8 i.tail.length).toNat := (Laws.EncodedForm.lengthByte h).symm
  cases i with
  | setup key cap intMin intMax advDur advGap =>
    simp [Instr.opcode, Instr.operandBytes, decodeS, le16Bytes, le32Bytes]
  | tick => rfl
  | gencmd ct fwd rsv tid payload => exact decodeG_fields opGencmd .gencmd ct fwd rsv tid hn
  | sctrl tid light =>
    simp only [Instr.tail] at hn
    simp [Instr.opcode, Instr.operandBytes, decodeC, le16Bytes, ← hn]
  | enq frame =>
    simp only [Instr.tail] at hn
    simp [Instr.opcode, Instr.operandBytes, decodeF, ← hn]
  | enqraw ct fwd rsv tid payload => exact decodeG_fields opEnqraw .enqraw ct fwd rsv tid hn
  | clr => rfl
  | qsize => rfl
  | qempty => rfl
  | pair lid gid => simp [Instr.opcode, Instr.operandBytes, decodeP, le16Bytes]
  | freset lid => simp [Instr.opcode, Instr.operandBytes, decodeI, le16Bytes]

/-- Settles O1: each format reads back the operand bytes written for it (`decodeOp_operandBytes`). -/
theorem decodeInvertsEncode : Obligations.DecodeInvertsEncode := fun _ h =>
  decode_of_decodeOp (decodeOp_operandBytes h)

/-- Settles O3: each sequence is by definition the encoding of its operation. -/
theorem sampleSequencesDecode : Obligations.SampleSequencesDecode :=
  ⟨decodeInvertsEncode .tick rfl,
   decodeInvertsEncode (.freset 42) rfl,
   decodeInvertsEncode (.pair 100 1) rfl,
   decodeInvertsEncode (.gencmd 5 true 0 0x012A [0xAA, 0xBB]) rfl,
   decodeInvertsEncode (.sctrl 42 [0xFF, 0x00, 0xFF, 0x00, 0x00, 0x00]) rfl,
   decodeInvertsEncode (.setup ⟨0xA1, 0xB2, 0xC3, 0xD4⟩ 100 32 64 50 10) rfl⟩

/-! ### Everything the decoder can answer (30_encoding R79, R81) -/

/-- The length that the format of the sequence's opcode and its length byte require (30_encoding R81). -/
def requiredLength (op : Byte) (operands : List Byte) : Nat := opLength op fun k => (op :: operands).getD k 0

/-- The answers to a sequence, each with the reason for it. -/
inductive Reading (op : Byte) (operands : List Byte) : Decoded → Prop
  /-- The sequence is the encoding of an operation. -/
  | spelled {i : Instr} (h : encode i = op :: operands) : Reading op operands (.instr i)
  /-- The sequence is shorter or longer than its format and length byte require. -/
  | wrongLength (h : (op :: operands).length ≠ requiredLength op operands) : Reading op operands (.badLength op)
  /-- The opcode map has no row for byte 0. -/
  | reserved (h : op ∉ opcodes) : Reading op operands (.illegalOp op)

/-- A length byte with the value of a length is the one the encoder writes for it. -/
theorem ofNat_length_eq_lengthByte {n : Byte} {bytes : List Byte} (h : bytes.length = n.toNat) :
    BitVec.ofNat 8 bytes.length = n := by
  rw [h, BitVec.ofNat_toNat, BitVec.setWidth_eq]

theorem decodeS_reading (operands : List Byte) : Reading opSetup operands (decodeS opSetup operands) := by
  unfold decodeS
  split
  · exact .spelled (by simp [encode, Instr.opcode, Instr.operandBytes])
  · rename_i hne
    refine .wrongLength fun hlen => ?_
    have h18 : operands.length = 18 := Nat.succ.inj hlen
    match operands, h18 with
    | [k0, k1, k2, k3, c0, c1, n0, n1, x0, x1, d0, d1, d2, d3, g0, g1, g2, g3], _ =>
      exact hne _ _ _ _ _ _ _ _ _ _ _ _ _ _ _ _ _ _ rfl

theorem decodeZ_reading {op : Byte} {i : Instr} (henc : encode i = [op]) (hlen : ∀ f, opLength op f = 1)
    (operands : List Byte) : Reading op operands (decodeZ op i operands) := by
  cases operands with
  | nil => exact .spelled henc
  | cons b bs => exact .wrongLength (by simp [requiredLength, hlen])

/-- With a length byte the payload's length decides: the sequence spells the operation, or has a wrong length. -/
theorem Reading.of_lengthByte {op n : Byte} {operands payload : List Byte} {i : Instr}
    (henc : BitVec.ofNat 8 payload.length = n → encode i = op :: operands)
    (hlen : (op :: operands).length = requiredLength op operands ↔ payload.length = n.toNat) :
    Reading op operands (if payload.length = n.toNat then .instr i else .badLength op) := by
  split
  · rename_i h
    exact .spelled (henc (ofNat_length_eq_lengthByte h))
  · rename_i h
    exact .wrongLength (mt hlen.mp h)

theorem decodeG_reading {op : Byte} {mk : BitVec 3 → Bool → BitVec 4 → Half → List Byte → Instr}
    (henc : ∀ ct fwd rsv tid payload, encode (mk ct fwd rsv tid payload) =
      op :: gflags ct fwd rsv :: loByte tid :: hiByte tid :: BitVec.ofNat 8 payload.length :: payload)
    (hlen : ∀ f, opLength op f = 5 + (f 4).toNat) (operands : List Byte) :
    Reading op operands (decodeG op mk operands) := by
  match operands with
  | g :: t0 :: t1 :: n :: payload =>
    exact .of_lengthByte (fun hn => by simp [henc, hn]) (by simp [requiredLength, hlen]; omega)
  | [] | [_] | [_, _] | [_, _, _] => exact .wrongLength (by simp [requiredLength, hlen])

theorem decodeC_reading (operands : List Byte) : Reading opSctrl operands (decodeC opSctrl operands) := by
  have hlen : ∀ f, opLength opSctrl f = 4 + (f 3).toNat := fun _ => rfl
  match operands with
  | t0 :: t1 :: n :: light =>
    exact .of_lengthByte (fun hn => by simp [encode, Instr.opcode, Instr.operandBytes, hn])
      (by simp [requiredLength, hlen]; omega)
  | [] | [_] | [_, _] => exact .wrongLength (by simp [requiredLength, hlen])

theorem decodeF_reading (operands : List Byte) : Reading opEnq operands (decodeF opEnq operands) := by
  have hlen : ∀ f, opLength opEnq f = 2 + (f 1).toNat := fun _ => rfl
  match operands with
  | n :: frame =>
    exact .of_lengthByte (fun hn => by simp [encode, Instr.opcode, Instr.operandBytes, hn])
      (by simp [requiredLength, hlen]; omega)
  | [] => exact .wrongLength (by simp [requiredLength, hlen])

theorem decodeP_reading (operands : List Byte) : Reading opPair operands (decodeP opPair operands) := by
  unfold decodeP
  split
  · exact .spelled (by simp [encode, Instr.opcode, Instr.operandBytes])
  · rename_i hne
    refine .wrongLength fun hlen => ?_
    have h4 : operands.length = 4 := Nat.succ.inj hlen
    match operands, h4 with
    | [l0, l1, g0, g1], _ => exact hne _ _ _ _ rfl

theorem decodeI_reading (operands : List Byte) : Reading opFreset operands (decodeI opFreset operands) := by
  unfold decodeI
  split
  · exact .spelled (by simp [encode, Instr.opcode, Instr.operandBytes])
  · rename_i hne
    refine .wrongLength fun hlen => ?_
    have h2 : operands.length = 2 := Nat.succ.inj hlen
    match operands, h2 with
    | [l0, l1], _ => exact hne _ _ rfl

/-- One line per row of the opcode map, in its order (30_encoding R78). -/
theorem decodeOp_reading (op : Byte) (operands : List Byte) : Reading op operands (decodeOp op operands) := by
  by_cases hop : op ∈ opcodes
  · simp only [opcodes, List.mem_cons, List.not_mem_nil, or_false] at hop
    rcases hop with rfl | rfl | rfl | rfl | rfl | rfl | rfl | rfl | rfl | rfl | rfl
    · exact decodeS_reading operands
    · exact decodeZ_reading rfl (fun _ => rfl) operands
    · exact decodeG_reading (fun _ _ _ _ _ => rfl) (fun _ => rfl) operands
    · exact decodeC_reading operands
    · exact decodeF_reading operands
    · exact decodeG_reading (fun _ _ _ _ _ => rfl) (fun _ => rfl) operands
    · exact decodeZ_reading rfl (fun _ => rfl) operands
    · exact decodeZ_reading rfl (fun _ => rfl) operands
    · exact decodeZ_reading rfl (fun _ => rfl) operands
    · exact decodeP_reading operands
    · exact decodeI_reading operands
  · rw [decodeOp_reserved hop]
    exact .reserved hop

theorem encode_eq_of_decodeOp {op : Byte} {operands : List Byte} {i : Instr} (h : decodeOp op operands = .instr i) :
    encode i = op :: operands := by
  have hr := decodeOp_reading op operands
  rw [h] at hr
  cases hr with
  | spelled henc => exact henc

/-- Settles O2: what is read is what is spelled (`decodeOp_reading`), within its length byte (`decodeOp_wellFormed`). -/
theorem encodeInvertsDecode : Obligations.EncodeInvertsDecode := by
  intro bytes i h
  cases bytes with
  | nil => cases h
  | cons op operands =>
    have hd := Machine.decodeOp_of_decode h
    exact ⟨encode_eq_of_decodeOp hd, decodeOp_wellFormed hd⟩

/-! ### The length decides (30_encoding R81, 44_host_ops R206) -/

/-- `EncodedForm` over every constructor. -/
theorem encodedForm (i : Instr) : Laws.EncodedForm.Statement i := by
  cases i with
  | setup key cap intMin intMax advDur advGap => exact Laws.EncodedForm.setup key cap intMin intMax advDur advGap
  | tick => exact Laws.EncodedForm.tick
  | gencmd ct fwd rsv tid payload => exact Laws.EncodedForm.gencmd ct fwd rsv tid payload
  | sctrl tid light => exact Laws.EncodedForm.sctrl tid light
  | enq frame => exact Laws.EncodedForm.enq frame
  | enqraw ct fwd rsv tid payload => exact Laws.EncodedForm.enqraw ct fwd rsv tid payload
  | clr => exact Laws.EncodedForm.clr
  | qsize => exact Laws.EncodedForm.qsize
  | qempty => exact Laws.EncodedForm.qempty
  | pair lid gid => exact Laws.EncodedForm.pair lid gid
  | freset lid => exact Laws.EncodedForm.freset lid

/-- An operation that is read begins with its opcode and has the length its format and length byte require. -/
theorem opcode_and_length_of_decodeOp {op : Byte} {operands : List Byte} {i : Instr}
    (h : decodeOp op operands = .instr i) :
    i.opcode = op ∧ (op :: operands).length = requiredLength op operands := by
  have henc := encode_eq_of_decodeOp h
  obtain ⟨_, _, hlen⟩ := encodedForm i (decodeOp_wellFormed h)
  have hop : i.opcode = op := (List.cons.inj henc).1
  rw [henc, hop] at hlen
  exact ⟨hop, hlen⟩

/-- A valid opcode with a wrong length is rejected for its length. -/
theorem decodeOp_wrongLength {op : Byte} {operands : List Byte} (hop : op ∈ opcodes)
    (hlen : (op :: operands).length ≠ requiredLength op operands) : decodeOp op operands = .badLength op := by
  have hr := decodeOp_reading op operands
  generalize hd : decodeOp op operands = d at hr
  cases hr with
  | spelled _ => exact absurd (opcode_and_length_of_decodeOp hd).2 hlen
  | wrongLength _ => rfl
  | reserved hres => exact absurd hop hres

/-- A valid opcode with the length required is an operation. -/
theorem exists_decodeOp_of_length {op : Byte} {operands : List Byte} (hop : op ∈ opcodes)
    (hlen : (op :: operands).length = requiredLength op operands) : ∃ i, decodeOp op operands = .instr i := by
  have hr := decodeOp_reading op operands
  generalize decodeOp op operands = d at hr
  cases hr with
  | spelled _ => exact ⟨_, rfl⟩
  | wrongLength hne => exact absurd hlen hne
  | reserved hres => exact absurd hop hres

/-- Settles O5: both directions of R81 from everything the decoder can answer (`decodeOp_reading`). -/
theorem lengthDecidesTheOperation : Obligations.LengthDecidesTheOperation := by
  intro op operands hop
  constructor
  · intro hlen t rest s hpending
    rw [Machine.step_op hpending, decodeOp_wrongLength hop hlen]
    exact congrArg Host.Outcome.next (Machine.State.reject_eq ..)
  · intro hlen
    obtain ⟨i, hi⟩ := exists_decodeOp_of_length hop hlen
    exact ⟨i, decode_of_decodeOp hi, (opcode_and_length_of_decodeOp hi).1, decodeOp_wellFormed hi⟩

end Sys2Proof
end

section
/-! Header byte 0, the advertisement data, and the pairing frames that a framer can have (30_encoding R61, R66, R67);
what PAIR and TICK answer (R77). -/

namespace Sys2Proof.Machine

/-! ### Header byte 0 (30_encoding R61, 40_codec R92) -/

/-- Target id bits 11:8, as HDR0's shift and mask compute them. -/
theorem shiftRight_and_eq_nibble (tid : Half) : (tid.toNat >>> 8) &&& 0x0F = (tid.extractLsb' 8 4).toNat := by
  rw [BitVec.extractLsb'_toNat]
  exact Nat.and_two_pow_sub_one_eq_mod _ 4

/-- HDR0 is its three fields side by side: the shifted parts do not overlap. -/
theorem hdr0_eq_append (ct : BitVec 3) (tid : Half) (fwd : Bool) :
    hdr0 ct tid fwd = BitVec.ofBool fwd ++ ct ++ tid.extractLsb' 8 4 := by
  rw [hdr0, shiftRight_and_eq_nibble]
  generalize tid.extractLsb' 8 4 = nibble
  revert ct fwd nibble; decide

/-- Settles O16: the fields of HDR0 stand side by side (`hdr0_eq_append`), so each is read back. -/
theorem headerByteZeroFields : Obligations.HeaderByteZeroFields := by
  intro ct tid fwd
  rw [hdr0_eq_append]
  generalize tid.extractLsb' 8 4 = nibble
  revert ct fwd nibble; decide

/-! ### The advertisement data (30_encoding R66, 40_codec R104) -/

/-- The advertisement data: seven bytes of its own, then the first 24 of the frame. -/
theorem adWrap_eq (P : Params) (frame : List Byte) : adWrap P frame =
    [0x02, 0x01, P.advFlags, BitVec.ofNat 8 (min frame.length 24 + 3), 0xFF, loByte P.mfrId, hiByte P.mfrId] ++
      frame.take 24 := by
  have htake : frame.take 24 = frame.take (min frame.length 24) := by rw [List.take_eq_take_min, min_comm]
  rw [htake]
  rfl

theorem loByte_eq_ofNat (h : Half) : loByte h = BitVec.ofNat 8 (h.toNat % 256) := by
  apply BitVec.eq_of_toNat_eq
  simp [loByte]

theorem hiByte_eq_ofNat (h : Half) : hiByte h = BitVec.ofNat 8 (h.toNat / 256) := by
  apply BitVec.eq_of_toNat_eq
  simp [hiByte, Nat.shiftRight_eq_div_pow]

/-- Settles O22: the seven bytes one by one, then the frame (`adWrap_eq`). -/
theorem advertisementDataLayout : Obligations.AdvertisementDataLayout := by
  intro P frame
  refine ⟨?_, adWrap_length_le P frame, ?_⟩
  · rw [adWrap_eq, List.length_append, List.length_take, min_comm]
    rfl
  · rw [adWrap_eq, ← loByte_eq_ofNat, ← hiByte_eq_ofNat]
    exact ⟨rfl, rfl, rfl, rfl⟩

/-! ### Pairing and discovery frames (30_encoding R67, 43_pairing R180 to R185) -/

/-- The cut of a trailer is none where the packet has at most 31 bytes (43_pairing R181). -/
theorem pairTrailer_eq_pairCheck {P : Params} {head : List Byte}
    (h : (head ++ P.pairCheck head).length ≤ advLimit) : pairTrailer P head = P.pairCheck head := by
  rw [List.length_append] at h
  exact List.take_of_length_le (by omega)

/-- An output that meets R181, R182 and R185 is taken as it is. -/
theorem pairingFrame_eq_raw {P : Params} {key : Bytes4} {lid gid : Half} {pseq : Byte} {head : List Byte}
    (hlen : (P.pairingRaw key lid gid pseq).length ≤ 31) (hkey : SpellsKey key (P.pairingRaw key lid gid pseq))
    (hcheck : P.pairingRaw key lid gid pseq = head ++ P.pairCheck head) :
    pairingFrame P key lid gid pseq = P.pairingRaw key lid gid pseq := by
  have htrailer : pairTrailer P head = P.pairCheck head := pairTrailer_eq_pairCheck (hcheck ▸ hlen)
  have hlegal : pairingLegal P key (P.pairingRaw key lid gid pseq) = true :=
    (pairingLegal_iff ..).mpr ⟨hlen, hkey, head, htrailer ▸ hcheck⟩
  rcases pairingFrame_cases P key lid gid pseq with ⟨_, h⟩ | ⟨hillegal, _⟩
  · exact h
  · rw [hlegal] at hillegal; cases hillegal

/-- Settles O49: neither frame builder changes an output that the spec allows. -/
theorem pairingFramesAreUninterpreted : Obligations.PairingFramesAreUninterpreted := by
  intro P f g hf hg
  constructor
  · funext key lid gid pseq
    obtain ⟨hlen, hkey, head, hcheck⟩ := hf key lid gid pseq
    exact pairingFrame_eq_raw (P := { P with pairingRaw := f }) hlen hkey hcheck
  · funext key lid gid
    exact List.take_of_length_le (hg key lid gid)

/-! ### PAIR and TICK answer OK (30_encoding R77) -/

/-- An operation that answers after some outputs leaves its response last on the trace. -/
theorem State.Outputs.respond_trace {ok : Event → Bool} {s u : State} (h : s.Outputs ok u) (status : Status)
    (data : List Byte) : ∃ evs, (u.respond status data).trace = s.trace ++ evs ++ [.rsp ⟨status, data⟩] := by
  obtain ⟨_, _, evs, htrace, _⟩ := h
  exact ⟨evs, by rw [State.respond_trace, htrace]⟩

theorem pair_answersOk (P : Params) (lid gid : Half) {s : State} (hc : s.configured = true) :
    ∃ t evs, pair P lid gid s = .next t ∧ t.trace = s.trace ++ evs ++ [.rsp ⟨.ok, []⟩] := by
  refine ⟨_, loggedCall .stopScan (s.nextCode P) ++ loggedCall .stopAdv ((s.radioLogged P .stopScan).nextCode P),
    pair_configured P lid gid hc, ?_⟩
  simp [State.openSession]

theorem tick_answersOk (P : Params) {s : State} (hc : s.configured = true) :
    ∃ t evs, tick P s = .next t ∧ t.trace = s.trace ++ evs ++ [.rsp ⟨.ok, []⟩] := by
  cases hm : s.mode with
  | pairing =>
    obtain ⟨evs, htrace⟩ := (s.pairingTick_sends P).respond_trace .ok []
    exact ⟨_, evs, tick_pairing P hc hm, htrace⟩
  | normal =>
    obtain ⟨evs, htrace⟩ := (s.schedulerTick_outputs P).respond_trace .ok []
    exact ⟨_, evs, tick_normal P hc hm, htrace⟩

/-- Settles O38: neither operation has a path without its OK, whatever codes its radio calls draw. -/
theorem pairAndTickAlwaysAnswerOk : Obligations.PairAndTickAlwaysAnswerOk := fun lid gid _ hc =>
  ⟨pair_answersOk Config.framer lid gid hc, tick_answersOk Config.framer hc⟩

end Sys2Proof.Machine
end

section
/-! PacketCodec's internal functions (40_codec R90 to R101): the sequence counter, the checksum, the cipher, the body it
encrypts, and the inner structure. -/

namespace Sys2Proof.Machine

/-! ### The sequence counter (40_codec R90, R91) -/

/-- A call of SEQNEXT: the value the frame carries, and SEQ stepped. -/
theorem State.seqNext_eq (s : State) : s.seqNext = (s.seq, { s with seq := seqSucc s.seq }) := rfl

/-- The successor as R90's pseudocode computes it, in numbers. -/
theorem seqSucc_eq_ofNat (v : Byte) :
    seqSucc v = if 255 ≤ (v.toNat + 1) % 256 then 1 else BitVec.ofNat 8 ((v.toNat + 1) % 256) := by
  have hnext : v + 1 = BitVec.ofNat 8 ((v.toNat + 1) % 256) := by
    apply BitVec.eq_of_toNat_eq
    simp
  have hnum : (v + 1).toNat = (v.toNat + 1) % 256 := BitVec.toNat_add v 1
  simp only [seqSucc, hnum, ← hnext]

/-- The one value that the successor does not step to the next is 254 (40_codec R91). -/
theorem seqSucc_eq_ite (v : Byte) : seqSucc v = if v.toNat = 254 then 1 else v + 1 := by
  apply BitVec.eq_of_toNat_eq
  rw [seqSucc_toNat]
  split
  · rfl
  · exact (BitVec.toNat_add v 1).symm

/-- Settles O14: the successor in numbers (`seqSucc_eq_ofNat`). -/
theorem seqNextHandsOutAndAdvances : Obligations.SeqNextHandsOutAndAdvances := by
  intro s
  rw [State.seqNext_eq, seqSucc_eq_ofNat]

/-- SEQ after k calls of SEQNEXT from 1 (40_codec R91). -/
theorem seqNext_iterate_seq {s : State} (h : s.seq = 1) (k : Nat) :
    ((fun u : State => u.seqNext.2)^[k] s).seq.toNat = k % 254 + 1 := by
  induction k with
  | zero => rw [Function.iterate_zero, id_eq, h]; rfl
  | succ k ih =>
    rw [Function.iterate_succ_apply', State.seqNext_eq, seqSucc_toNat, ih]
    split <;> omega

/-- Settles O15, by induction on the number of calls (`seqNext_iterate_seq`): a call returns the SEQ it finds. -/
theorem sequenceCyclesThrough254Values : Obligations.SequenceCyclesThrough254Values :=
  fun _ k h => seqNext_iterate_seq h k

/-! ### The checksum (40_codec R93) -/

/-- Summing bytes from a start value is summing their numbers mod 256. -/
theorem foldl_add_toNat (bytes : List Byte) (a : Byte) :
    (bytes.foldl (· + ·) a).toNat = (a.toNat + (bytes.map BitVec.toNat).sum) % 256 := by
  induction bytes generalizing a with
  | nil => simp [Nat.mod_eq_of_lt a.isLt]
  | cons b bs ih =>
    have hadd : (a + b).toNat = (a.toNat + b.toNat) % 256 := BitVec.toNat_add a b
    rw [List.foldl_cons, ih, hadd, List.map_cons, List.sum_cons]
    omega

theorem checksum_toNat (body : List Byte) :
    (checksum body).toNat = ((body.eraseIdx 3).map BitVec.toNat).sum % 256 := by
  simpa [checksum] using foldl_add_toNat (body.eraseIdx 3) 0

/-- The byte at index 3 does not count, so the checksum can stand there itself. -/
theorem checksum_set_three (body : List Byte) (v : Byte) : checksum (body.set 3 v) = checksum body := by
  rw [checksum, checksum, List.eraseIdx_set_eq]

/-- Settles O17: the sum in numbers (`foldl_add_toNat`), from which byte 3 is left out. -/
theorem checksumSumsAllButByteThree : Obligations.ChecksumSumsAllButByteThree := fun body v =>
  ⟨checksum_toNat body, checksum_set_three body v⟩

/-! ### The cipher (40_codec R94, R96) -/

/-- A key's byte cycles by `index & 3`. -/
theorem keyByte_and_three (k : Bytes4) (i : Nat) : keyByte k (i &&& 3) = keyByte k i := by
  have hand : i &&& 3 = i % 4 := Nat.and_two_pow_sub_one_eq_mod i 2
  simp only [keyByte, hand, Nat.mod_mod]

/-- A cycle of the key begins at every fourth index, the payload's first among them. -/
theorem keyByte_four_add (k : Bytes4) (i : Nat) : keyByte k (4 + i) = keyByte k i := by
  simp only [keyByte, Nat.add_mod_left]

theorem keystream_header {ks key : Bytes4} {i : Nat} (h : i ≤ 3) : keystream ks key i = keyByte ks i := if_pos h

theorem keystream_payload {ks key : Bytes4} {i : Nat} (h : 3 < i) : keystream ks key i = keyByte key i :=
  if_neg (Nat.not_le.mpr h)

/-- Byte j of what stands from body index i on is XORed with the keystream byte of index i + j. -/
theorem xorFrom_getElem? (ks key : Bytes4) (bytes : List Byte) (i j : Nat) :
    (xorFrom ks key i bytes)[j]? = bytes[j]?.map (· ^^^ keystream ks key (i + j)) := by
  induction bytes generalizing i j with
  | nil => rfl
  | cons b bs ih =>
    cases j with
    | zero => rfl
    | succ j => simpa [xorFrom, Nat.add_right_comm, Nat.add_assoc] using ih (i + 1) j

theorem xorCrypt_getElem? (ks key : Bytes4) (body : List Byte) (i : Nat) :
    (xorCrypt ks key body)[i]? = body[i]?.map (· ^^^ keystream ks key i) := by
  rw [xorCrypt, xorFrom_getElem?, Nat.zero_add]

/-- Settles O18: one keystream byte per index (`xorCrypt_getElem?`), of the header's or the mesh key's cycle. -/
theorem cipherXorsEachByteWithItsKeystream : Obligations.CipherXorsEachByteWithItsKeystream := by
  intro ks key body
  refine ⟨xorCrypt_length ks key body, ⟨rfl, rfl, rfl, rfl⟩, fun i b hb => ⟨fun hi => ?_, fun hi => ?_⟩⟩
  · rw [xorCrypt_getElem?, hb, keyByte_and_three, keystream_header hi]; rfl
  · rw [xorCrypt_getElem?, hb, keyByte_and_three, keystream_payload hi]; rfl

/-- The keystream of an index does not depend on the bytes, so a second pass takes the first one back. -/
theorem xorFrom_xorFrom (ks key : Bytes4) (i : Nat) (bytes : List Byte) :
    xorFrom ks key i (xorFrom ks key i bytes) = bytes := by
  induction bytes generalizing i with
  | nil => rfl
  | cons b bs ih => simp [xorFrom, ih]

/-- Settles O19: `xorFrom_xorFrom` from index 0. -/
theorem cipherIsSelfInverse : Obligations.CipherIsSelfInverse := fun ks key body => xorFrom_xorFrom ks key 0 body

/-! ### The body (40_codec R97, R100) -/

theorem genBody_fst (P : Params) (ct : BitVec 3) (tid : Half) (payload : List Byte) (fwd : Bool) (s : State) :
    (s.genBody P ct tid payload fwd).1 =
      xorCrypt P.hdrKs s.meshKey (plainBody P s.meshKey s.seq ct tid payload fwd) := rfl

theorem genBody_snd (P : Params) (ct : BitVec 3) (tid : Half) (payload : List Byte) (fwd : Bool) (s : State) :
    (s.genBody P ct tid payload fwd).2 = { s with seq := seqSucc s.seq } := rfl

/-- Decrypting a generated body gives the plain body back. -/
theorem xorCrypt_genBody (P : Params) (ct : BitVec 3) (tid : Half) (payload : List Byte) (fwd : Bool) (s : State) :
    xorCrypt P.hdrKs s.meshKey (s.genBody P ct tid payload fwd).1 =
      plainBody P s.meshKey s.seq ct tid payload fwd :=
  cipherIsSelfInverse P.hdrKs s.meshKey _

/-- The checksum a plain body carries is its own: it was taken with 0 at index 3, which does not count. -/
theorem checksum_plainBody (P : Params) (key : Bytes4) (seq : Byte) (ct : BitVec 3) (tid : Half) (payload : List Byte)
    (fwd : Bool) : checksum (plainBody P key seq ct tid payload fwd) =
      checksum ([hdr0 ct tid fwd, seq, keyByte key P.hdr2KeyIndex.val, 0x00] ++ payload) :=
  checksum_set_three _ _

/-- Payload byte j stands at index 4 + j of the plain body. -/
theorem plainBody_getElem?_payload (P : Params) (key : Bytes4) (seq : Byte) (ct : BitVec 3) (tid : Half)
    (payload : List Byte) (fwd : Bool) (j : Nat) :
    (plainBody P key seq ct tid payload fwd)[4 + j]? = payload[j]? := by
  rw [plainBody_eq, Nat.add_comm]; rfl

/-- Settles O20: decryption shows the plain body (`xorCrypt_genBody`), whose checksum is its own
(`checksum_plainBody`); the payload is encrypted with the mesh key from its first byte on. -/
theorem generatedBodyDecrypts : Obligations.GeneratedBodyDecrypts := by
  intro P ct tid payload fwd s _ _
  obtain ⟨htid, hct, hfwd⟩ := headerByteZeroFields ct tid fwd
  refine ⟨hdr0 ct tid fwd, _, (xorCrypt_genBody ..).trans (plainBody_eq ..), htid, hct, hfwd, ?_, ?_, ?_⟩
  · rw [xorCrypt_genBody, checksum_plainBody]
  · rw [genBody_snd, seqSucc_eq_ite]
  · intro j b hb
    rw [genBody_fst, xorCrypt_getElem?, plainBody_getElem?_payload, hb, keystream_payload (by omega),
      keyByte_four_add, keyByte_and_three]
    rfl

/-! ### The inner structure (40_codec R101) -/

/-- The tag byte: 2 in the low nibble, L + 1 above it. -/
def innerTag (light : List Byte) : Byte := BitVec.ofNat 8 (2 ||| ((light.length + 1) <<< 4))

theorem innerStructure_eq (tid : Half) (light : List Byte) :
    innerStructure tid light = innerTag light :: loByte tid :: (light ++ List.replicate (10 - light.length) 0x00) := rfl

/-- The two nibbles of the tag do not overlap, and for a legal payload the tag fits its byte. -/
theorem innerTag_toNat {light : List Byte} (h : light.length ≤ 8) :
    (innerTag light).toNat = 2 + 16 * (light.length + 1) := by
  have hor : (light.length + 1) <<< 4 + 2 = (light.length + 1) <<< 4 ||| 2 :=
    Nat.shiftLeft_add_eq_or_of_lt (by decide) _
  rw [innerTag, BitVec.toNat_ofNat, Nat.or_comm, ← hor, Nat.shiftLeft_eq]
  omega

theorem innerStructure_length (tid : Half) {light : List Byte} (h : light.length ≤ 10) :
    (innerStructure tid light).length = 12 := by
  simp only [innerStructure_eq, List.length_cons, List.length_append, List.length_replicate]
  omega

/-- From index 2 on: the light payload, then zeros. -/
theorem innerStructure_getElem?_two_add (tid : Half) (light : List Byte) (k : Nat) :
    (innerStructure tid light)[2 + k]? = (light ++ List.replicate (10 - light.length) 0x00)[k]? := by
  rw [innerStructure_eq, Nat.add_comm]; rfl

/-- Settles O21: the tag in numbers (`innerTag_toNat`), then the bytes by their place. -/
theorem innerStructureLayout : Obligations.InnerStructureLayout := by
  intro tid light hlen
  refine ⟨innerStructure_length tid (by omega), ⟨innerTag light, rfl, innerTag_toNat hlen⟩, ?_, ?_, ?_⟩
  · exact congrArg some (loByte_eq_ofNat tid)
  · intro k b hb
    obtain ⟨hk, _⟩ := List.getElem?_eq_some_iff.mp hb
    rw [innerStructure_getElem?_two_add, List.getElem?_append_left hk, hb]
  · intro k hlo hhi
    obtain ⟨j, rfl⟩ := Nat.exists_eq_add_of_le (show 2 ≤ k by omega)
    rw [innerStructure_getElem?_two_add, List.getElem?_append_right (by omega),
      List.getElem?_replicate_of_lt (by omega)]

end Sys2Proof.Machine
end

section
/-! GENCMD and SCTRL through `exec`, and the four frame operations under RF_FRAME_CONCAT (40_codec R98, R99, R102,
R103; 44_host_ops R202, R203). -/

namespace Sys2Proof.Machine

/-! ### Where a frame operation is turned away -/

theorem State.rejectOperand_eq (s : State) (op : Byte) :
    s.rejectOperand op = { s with trace := s.trace ++ turnedAway (.badOperand op) .badOperand } := s.reject_eq ..

theorem gencmd_reserved {P : Params} {s : State} (hc : s.configured = true) {rsv : BitVec 4} (hr : rsv ≠ 0)
    (ct : BitVec 3) (fwd : Bool) (tid : Half) (payload : List Byte) :
    gencmd P ct fwd rsv tid payload s = .next (s.rejectOperand opGencmd) := by
  have hclear : reservedClear rsv = false := Bool.eq_false_iff.mpr (mt (reservedClear_iff rsv).mp hr)
  simp [gencmd, hc, hclear]

theorem gencmd_tooLong {P : Params} {s : State} (hc : s.configured = true) {payload : List Byte}
    (hf : ¬ P.rfLen (4 + payload.length) ≤ frameMax) (ct : BitVec 3) (fwd : Bool) (tid : Half) :
    gencmd P ct fwd 0 tid payload s = .next (s.rejectOperand opGencmd) := by
  have hfits : frameFits P payload.length = false := Bool.eq_false_iff.mpr (mt (frameFits_iff ..).mp hf)
  simp [gencmd, hc, hfits]

theorem gencmd_unconfigured {P : Params} {s : State} (hc : s.configured = false) (ct : BitVec 3) (fwd : Bool)
    (rsv : BitVec 4) (tid : Half) (payload : List Byte) :
    gencmd P ct fwd rsv tid payload s = .next (s.reject (.notConfigured opGencmd) .notConfigured) :=
  gated_unconfigured hc

theorem sctrl_oversized {P : Params} {s : State} (hc : s.configured = true) {light : List Byte}
    (hl : lightMax < light.length) (tid : Half) :
    sctrl P tid light s = .next (s.reject (.oversizedPayload light.length) .oversized) := by
  simp [sctrl, hc, hl]

theorem sctrl_tooLong {P : Params} {s : State} (hc : s.configured = true) {light : List Byte}
    (hl : light.length ≤ lightMax) (hf : ¬ P.rfLen (4 + innerLen) ≤ frameMax) (tid : Half) :
    sctrl P tid light s = .next (s.rejectOperand opSctrl) := by
  have hfits : frameFits P innerLen = false := Bool.eq_false_iff.mpr (mt (frameFits_iff ..).mp hf)
  simp [sctrl, hc, hfits, Nat.not_lt.mpr hl]

theorem sctrl_unconfigured {P : Params} {s : State} (hc : s.configured = false) (tid : Half) (light : List Byte) :
    sctrl P tid light s = .next (s.reject (.notConfigured opSctrl) .notConfigured) := gated_unconfigured hc

/-! ### GENCMD and SCTRL through `exec` (40_codec R99, R102) -/

/-- Settles O23, in the order of the operation's tests: the frame generated (`gencmd_accepted`), too long, a reserved
bit set, not configured. -/
theorem gencmdAnswersTheFrame : Obligations.GencmdAnswersTheFrame := by
  intro ct fwd rsv tid payload s
  rw [exec_gencmd]
  refine ⟨?_, fun hc hr => ?_, fun hc => ?_⟩
  · rintro hc rfl
    split
    case isTrue hf => exact gencmd_accepted hc hf ct fwd tid
    case isFalse hf => rw [gencmd_tooLong hc hf, State.rejectOperand_eq]; rfl
  · rw [gencmd_reserved hc hr, State.rejectOperand_eq]; rfl
  · rw [gencmd_unconfigured hc, State.reject_eq]; rfl

/-- Settles O25, in the order of the operation's tests: the frame generated (`sctrl_accepted`), too long, oversized, not
configured. -/
theorem sctrlAnswersTheFrame : Obligations.SctrlAnswersTheFrame := by
  intro tid light s
  rw [exec_sctrl]
  refine ⟨fun hc hl => ?_, fun hc hl => ?_, fun hc => ?_⟩
  · split
    case isTrue hf => exact sctrl_accepted hc hl hf tid
    case isFalse hf => rw [sctrl_tooLong hc hl hf, State.rejectOperand_eq]; rfl
  · rw [sctrl_oversized hc hl, State.reject_eq]
  · rw [sctrl_unconfigured hc, State.reject_eq]; rfl

/-! ### Under RF_FRAME_CONCAT (40_codec R98) -/

/-- The frame of a command: the preamble, then the encrypted body. -/
theorem IsConcat.genFrame_fst {P : Params} (h : IsConcat P) (ct : BitVec 3) (tid : Half) (payload : List Byte)
    (fwd : Bool) (s : State) :
    (s.genFrame P ct tid payload fwd).1 = P.preamble.toList ++ (s.genBody P ct tid payload fwd).1 := h.rfFrame _

/-- Six preamble bytes and four header bytes before the payload. -/
theorem IsConcat.genFrame_length {P : Params} (h : IsConcat P) (ct : BitVec 3) (tid : Half) (payload : List Byte)
    (fwd : Bool) (s : State) : (s.genFrame P ct tid payload fwd).1.length = 10 + payload.length := by
  rw [Machine.genFrame_length, h.1]; omega

/-- A frame fits FRAME_MAX exactly where its payload has at most 245 bytes. -/
theorem IsConcat.rfLen_le_frameMax_iff {P : Params} (h : IsConcat P) (n : Nat) :
    P.rfLen (4 + n) ≤ frameMax ↔ n ≤ 245 := by
  rw [h.1]; unfold frameMax; omega

/-- The response data: the length in a byte, then preamble and body. -/
theorem IsConcat.frameData_genFrame {P : Params} (h : IsConcat P) (ct : BitVec 3) (tid : Half) (payload : List Byte)
    (fwd : Bool) (s : State) :
    frameData (s.genFrame P ct tid payload fwd).1 =
      BitVec.ofNat 8 (10 + payload.length) :: (P.preamble.toList ++ (s.genBody P ct tid payload fwd).1) := by
  rw [frameData, h.genFrame_length, h.genFrame_fst]

/-- With room in the queue the frame of a command is appended and SEQ has stepped (44_host_ops R202, R203). -/
theorem IsConcat.enqBody_genFrame {P : Params} (h : IsConcat P) {s : State} (hd : s.cap.toNat ≤ qdepthMax P)
    (hq : s.q.length < s.cap.toNat) (ct : BitVec 3) (tid : Half) (payload : List Byte) (fwd : Bool) :
    enqBody P (s.genFrame P ct tid payload fwd).1 { s with seq := seqSucc s.seq } = .next (({ s with
      seq := seqSucc s.seq
      q := s.q ++ [⟨P.preamble.toList ++ (s.genBody P ct tid payload fwd).1, s.now, 0⟩] } : State).respond .ok []) := by
  rw [h.genFrame_fst]
  exact enqBody_room hq hd

/-- Settles O24, operation by operation: where the frame fits each answers or enqueues it (`gencmd_accepted` and its
like), and under RF_FRAME_CONCAT it is the preamble and the body (`IsConcat.genFrame_fst`). -/
theorem frameOperationsCompleteUnderConcatenation : Obligations.FrameOperationsCompleteUnderConcatenation := by
  intro P ct fwd tid payload light s hP hc
  have hfits {n : Nat} (hn : n ≤ 245) : P.rfLen (4 + n) ≤ frameMax := (hP.rfLen_le_frameMax_iff n).mpr hn
  refine ⟨fun hp => ?_, fun hp => ?_, fun hl => ?_, fun hd hq => ⟨fun hp => ?_, ?_⟩⟩
  · rw [gencmd_accepted hc (hfits hp), hP.frameData_genFrame, State.respond_eq]
  · have hlong : ¬ P.rfLen (4 + payload.length) ≤ frameMax := mt (hP.rfLen_le_frameMax_iff _).mp (by omega)
    rw [gencmd_tooLong hc hlong, State.rejectOperand_eq]
    rfl
  · have hlen : (innerStructure tid light).length = 12 := innerStructure_length tid (by omega)
    rw [sctrl_accepted hc hl (hfits (by decide)), hP.frameData_genFrame, hlen]
    rfl
  · exact (enqraw_accepted hc (hfits hp) ct fwd tid).trans (hP.enqBody_genFrame hd hq ..)
  · exact (freset_accepted hc (hfits (by decide)) tid).trans (hP.enqBody_genFrame hd hq ..)

end Sys2Proof.Machine
end

section
/-! CommandQueue through `exec` (41_queue R120 to R125, R127): what ENQ, CLR, QSIZE and QEMPTY do to the whole state,
which operations change the queue and how, and how much a run of ENQs fits into it. -/

namespace Sys2Proof.Machine

/-! ### ENQ (41_queue R120) -/

theorem enq_room {P : Params} {s : State} (hc : s.configured = true) (hq : s.q.length < s.cap.toNat)
    (hd : s.cap.toNat ≤ qdepthMax P) (frame : List Byte) :
    enq P frame s = .next { s with q := s.q ++ [⟨frame, s.now, 0⟩], trace := s.trace ++ [.rsp ⟨.ok, []⟩] } := by
  rw [enq, gated_configured hc, enqBody_room hq hd, State.respond_eq]

theorem enq_full {P : Params} {s : State} (hc : s.configured = true) (hq : s.cap.toNat ≤ s.q.length)
    (frame : List Byte) :
    enq P frame s =
      .next { s with trace := s.trace ++ turnedAway (.queueFull s.q.length s.cap.toNat) .queueFull } := by
  rw [enq, gated_configured hc, enqBody_full hq, State.reject_eq]

/-- The NOT_CONFIGURED gate as one whole update (44_host_ops R205). -/
theorem gated_unconfigured_eq {s : State} (hc : s.configured = false) (op : Byte) (r : Result) :
    gated op s r = .next { s with trace := s.trace ++ turnedAway (.notConfigured op) .notConfigured } := by
  rw [gated_unconfigured hc, State.reject_eq]

/-- Settles O26: room (`enq_room`), a full queue (`enq_full`), the gate. -/
theorem enqAppendsOrDropsTheFrame : Obligations.EnqAppendsOrDropsTheFrame := by
  intro frame s
  rw [exec_enq]
  exact ⟨fun hc hq hd => enq_room hc hq hd frame, fun hc hq => enq_full hc hq frame,
    fun hc => gated_unconfigured_eq hc opEnq _⟩

/-! ### CLR (41_queue R122) -/

theorem exec_clr (s : State) : exec .clr s = gated opClr s (.next (s.qClear.respond .ok [])) := rfl

/-- Settles O28: the queue is emptied and answered for, or the gate turns CLR away. -/
theorem clrEmptiesTheQueue : Obligations.ClrEmptiesTheQueue := by
  intro s
  rw [exec_clr]
  refine ⟨fun hc => ?_, fun hc => gated_unconfigured_eq hc opClr _⟩
  rw [gated_configured hc, State.respond_eq, State.qClear]

/-! ### QSIZE and QEMPTY (41_queue R123, R124) -/

theorem exec_qsize (s : State) :
    exec .qsize s = gated opQsize s (.next (s.respond .ok (le16Bytes (BitVec.ofNat 16 s.q.length)))) := rfl

theorem exec_qempty (s : State) :
    exec .qempty s = gated opQempty s (.next (s.respond .ok [if s.q.length = 0 then 0x01 else 0x00])) := rfl

/-- The two bytes of a 16-bit quantity, low byte first, make up its value (20_memory R46). -/
theorem loByte_add_hiByte_toNat (h : Half) : (loByte h).toNat + 256 * (hiByte h).toNat = h.toNat := by
  have hlt : h.toNat < 65536 := h.isLt
  rw [loByte_eq_ofNat, hiByte_eq_ofNat, BitVec.toNat_ofNat, BitVec.toNat_ofNat]
  omega

/-- Settles O29: QLEN is at most CAP, a 16-bit register, so its two bytes give it whole; QEMPTY by its test of QLEN. -/
theorem qsizeAndQemptyReportTheLength : Obligations.QsizeAndQemptyReportTheLength := by
  intro s
  rw [exec_qsize, exec_qempty]
  refine ⟨fun hc hq => ?_, fun hc hempty => ?_, fun hc hne => ?_,
    fun hc => ⟨gated_unconfigured_eq hc opQsize _, gated_unconfigured_eq hc opQempty _⟩⟩
  · have hfits : s.q.length < 2 ^ 16 := lt_of_le_of_lt hq s.cap.isLt
    refine ⟨_, _, gated_configured hc, ?_⟩
    rw [loByte_add_hiByte_toNat, BitVec.toNat_ofNat, Nat.mod_eq_of_lt hfits]
  · rw [gated_configured hc, if_pos (List.length_eq_zero_iff.mpr hempty), State.respond_eq]
  · rw [gated_configured hc, if_neg (mt List.length_eq_zero_iff.mp hne), State.respond_eq]

/-! ### The queue changes as a FIFO (41_queue R125) -/

/-- Who writes the queue, among everything an operation can do to the registers. -/
theorem RegisterEffect.queue_writers {i : Instr} {s : State} {r : Registers} (e : RegisterEffect i s r) :
    r.q = s.q ∨
    (∃ frame, r.q = s.q ++ [⟨frame, s.now, 0⟩] ∧ i.opcode ∈ [opEnq, opEnqraw, opFreset]) ∨
    (r.q = s.q.tail ∧ i = .tick ∧ s.mode = .normal ∧ s.advState ≠ .advertising) ∨
    (r.q = [] ∧ i.opcode ∈ [opClr, opPair, opSetup]) := by
  cases e
  case enqueue frame _ hi _ =>
    subst hi
    exact .inr (.inl ⟨frame, rfl, List.mem_cons_self⟩)
  case frameEnqueue frame _ hi _ _ => exact .inr (.inl ⟨frame, rfl, List.mem_cons_of_mem opEnq hi⟩)
  case serve _ _ _ hi hm ha => exact .inr (.inr (.inl ⟨rfl, hi, hm, ha⟩))
  case clear _ hi =>
    subst hi
    exact .inr (.inr (.inr ⟨rfl, by simp [Instr.opcode]⟩))
  case openSession _ _ _ hi =>
    subst hi
    exact .inr (.inr (.inr ⟨rfl, by simp [Instr.opcode]⟩))
  case configure hi _ _ =>
    subst hi
    exact .inr (.inr (.inr ⟨rfl, by simp [Instr.opcode]⟩))
  all_goals exact .inl rfl

/-- Settles O56: the writers of the queue among the cases of `RegisterEffect`. -/
theorem queueIsAFifo : Obligations.QueueIsAFifo := fun _ _ _ hexec => (exec_registers hexec).queue_writers

/-! ### CAP is exact (41_queue R127) -/

/-- A run goes on from the state its first operation answers. -/
theorem runOps_cons {t : Word32} {i : Instr} {s s' : State} (h : exec i { s with now := t } = .next s')
    (rest : List (Word32 × Instr)) : runOps ((t, i) :: rest) s = runOps rest s' := by
  rw [runOps, h]

/-- A run of ENQs from a queue with room for `room` more entries: that many are appended in order, and no later one.
Each ENQ takes one from `room`, until a full queue stays as it is. -/
theorem runOps_enq (ops : List (Word32 × List Byte)) {s : State} {room : Nat} (hc : s.configured = true)
    (hd : s.cap.toNat ≤ qdepthMax Config.framer) (hroom : s.q.length + room = s.cap.toNat) :
    ∃ u : State, runOps (ops.map fun o => (o.1, .enq o.2)) s = .next u ∧
      u.q = s.q ++ (ops.take room).map (fun o => ⟨o.2, o.1, 0⟩) ∧
      u.trace = s.trace ++ (List.range ops.length).flatMap (fun k =>
        if k < room then [.rsp ⟨.ok, []⟩] else turnedAway (.queueFull s.cap.toNat s.cap.toNat) .queueFull) := by
  induction ops generalizing s room with
  | nil => exact ⟨s, rfl, by simp, by simp⟩
  | cons o rest ih =>
    obtain ⟨t, frame⟩ := o
    rw [List.map_cons, List.length_cons, List.range_succ_eq_map, List.flatMap_cons, List.flatMap_map]
    cases room with
    | zero =>
      have hfull : s.q.length = s.cap.toNat := hroom
      rw [runOps_cons ((exec_enq ..).trans (enq_full (s := { s with now := t }) hc hfull.ge frame))]
      obtain ⟨u, hrun, hq, htrace⟩ := ih (s := { s with
        now := t, trace := s.trace ++ turnedAway (.queueFull s.q.length s.cap.toNat) .queueFull }) hc hd hroom
      exact ⟨u, hrun, by simpa using hq, by simpa [hfull] using htrace⟩
    | succ room =>
      have hlt : s.q.length < s.cap.toNat := by omega
      rw [runOps_cons ((exec_enq ..).trans (enq_room (s := { s with now := t }) hc hlt hd frame))]
      obtain ⟨u, hrun, hq, htrace⟩ := ih (s := { s with
        now := t, q := s.q ++ [⟨frame, t, 0⟩], trace := s.trace ++ [.rsp ⟨.ok, []⟩] }) (room := room) hc hd
        (by simp only [List.length_append, List.length_singleton]; omega)
      exact ⟨u, hrun, by simpa using hq, by simpa using htrace⟩

/-- Settles O27: an empty queue has room for CAP entries (`runOps_enq`). -/
theorem capacityIsExact : Obligations.CapacityIsExact := by
  intro ops s hc hempty hd
  have hroom : s.q.length + s.cap.toNat = s.cap.toNat := by simp [hempty]
  obtain ⟨u, hrun, hq, htrace⟩ := runOps_enq ops hc hd hroom
  exact ⟨u, hrun, by rw [hq, hempty, List.nil_append], htrace⟩

end Sys2Proof.Machine
end

section
/-! TICK in Normal mode through `exec` (42_scheduler R140 to R147): what the Idle, Advertising and Gap steps do to the
whole state. -/

namespace Sys2Proof.Machine

/-! ### A tick in Normal mode is the step of ADV_STATE (42_scheduler R140, R141) -/

section Dispatch

variable {s : State} (hc : s.configured = true) (hm : s.mode = .normal)
include hc hm

theorem exec_tick_idle (ha : s.advState = .idle) :
    exec .tick s = .next ((s.idleStep Config.framer).respond .ok []) := by
  rw [exec_tick, tick_normal _ hc hm, State.schedulerTick, ha]

theorem exec_tick_advertising (ha : s.advState = .advertising) :
    exec .tick s = .next ((s.advertisingStep Config.framer).respond .ok []) := by
  rw [exec_tick, tick_normal _ hc hm, State.schedulerTick, ha]

theorem exec_tick_gap (ha : s.advState = .gap) :
    exec .tick s = .next ((s.gapStep Config.framer).respond .ok []) := by
  rw [exec_tick, tick_normal _ hc hm, State.schedulerTick, ha]

end Dispatch

/-! ### Idle (42_scheduler R142 to R144) -/

theorem State.idleStep_empty (P : Params) {s : State} (hq : s.q = []) : s.idleStep P = s := by
  simp [State.idleStep, State.deq, State.qPop, hq]

/-- The Idle step with CFG_ADV_DATA refused: START_ADV is not called and the frame is lost. -/
theorem State.idleStep_configRefused (P : Params) {s : State} {c : Command} {rest : List Command} {rc : Nat}
    {codes : List Nat} (hq : s.q = c :: rest) (hrc : rc ≠ 0) (hr : s.radioIn = rc :: codes) : s.idleStep P =
      { s with
        q := rest, radioIn := codes
        trace := s.trace ++ [.radio (.cfgAdvData (adWrap P c.frame)) rc, .warn (.radioConfigFailure rc)] } := by
  simp [State.idleStep, State.deq, State.qPop, hq, State.radio_given (P := P) (s := { s with q := rest }) hr, hrc,
    State.warn, State.emit]

/-- The Idle step with START_ADV refused: the frame is lost, and neither ADV_STATE nor STATE_T is written. -/
theorem State.idleStep_startRefused (P : Params) {s : State} {c : Command} {rest : List Command} {rc : Nat}
    {codes : List Nat} (hq : s.q = c :: rest) (hrc : rc ≠ 0) (hr : s.radioIn = 0 :: rc :: codes) : s.idleStep P =
      { s with
        q := rest, radioIn := codes
        trace := s.trace ++ [.radio (.cfgAdvData (adWrap P c.frame)) 0, .radio (.startAdv (normalParams P s)) rc,
          .warn (.radioStartFailure rc)] } := by
  simp [State.idleStep, State.deq, State.qPop, hq, State.radio_given (P := P) (s := { s with q := rest }) hr,
    State.radio_given (rc := rc) (codes := codes), hrc, normalParams, State.warn, State.emit]

/-- Settles O34: the queue empty, or its oldest command served (`State.idleStep_served`), or lost to a refusal of one of
the two radio calls. -/
theorem idleTickServesOneCommand : Obligations.IdleTickServesOneCommand := by
  intro s hc hm ha
  rw [exec_tick_idle hc hm ha]
  refine ⟨fun hq => ?empty, fun c rest codes hq =>
    ⟨fun hr => ?served, fun rc hrc => ⟨fun hr => ?configRefused, fun hr => ?startRefused⟩⟩⟩
  case empty => rw [State.idleStep_empty _ hq, State.respond_eq]
  case served => simp [State.idleStep_served _ hq hr, State.respond_eq, normalParams]
  case configRefused => simp [State.idleStep_configRefused _ hq hrc hr, State.respond_eq]
  case startRefused => simp [State.idleStep_startRefused _ hq hrc hr, State.respond_eq]

/-! ### Advertising (42_scheduler R145) -/

theorem State.advertisingStep_waiting (P : Params) {s : State} (h : s.elapsed s.stateT < s.advDur.toNat) :
    s.advertisingStep P = s := by
  simp [State.advertisingStep, Nat.not_le.mpr h]

/-- Settles O35: the wait, and the stop at the end of the duration (`State.advertisingStep_ended`). -/
theorem advertisingTickEndsAtTheDuration : Obligations.AdvertisingTickEndsAtTheDuration := by
  intro s hc hm ha
  rw [exec_tick_advertising hc hm ha]
  refine ⟨fun hwait => ?_, fun hend rc codes hr => ?_⟩
  · rw [State.advertisingStep_waiting _ hwait, State.respond_eq]
  · rw [State.advertisingStep_ended _ hend, State.radioLogged_given hr, State.respond_eq]

/-! ### Gap (42_scheduler R146, R147) -/

theorem State.gapStep_waiting (P : Params) {s : State} (h : s.elapsed s.stateT < s.advGap.toNat) :
    s.gapStep P = s := by
  simp [State.gapStep, Nat.not_le.mpr h]

/-- The Gap step at the end of the gap is the Idle step. -/
theorem State.gapStep_ended (P : Params) {s : State} (h : s.advGap.toNat ≤ s.elapsed s.stateT) :
    s.gapStep P = State.idleStep P { s with advState := .idle } := by
  simp [State.gapStep, h]

/-- Settles O36: the wait, and the fall-through, where both ticks are the same Idle step. -/
theorem gapTickFallsThroughToIdle : Obligations.GapTickFallsThroughToIdle := by
  intro s hc hm ha
  rw [exec_tick_gap hc hm ha]
  refine ⟨fun hwait => ?_, fun hend => ?_⟩
  · rw [State.gapStep_waiting _ hwait, State.respond_eq]
  · rw [State.gapStep_ended _ hend, exec_tick_idle (s := { s with advState := .idle }) hc hm rfl]

end Sys2Proof.Machine
end

section
/-! PAIR and the ticks of a session through `exec` (43_pairing R160 to R169, R173, R174): the timeout, a tick in which
nothing is due, a broadcast the radio accepts, one it refuses, and what the ticks of one session do to its registers. -/

namespace Sys2Proof.Machine

/-! ### PAIR (43_pairing R160) -/

/-- Settles O37: the two stop calls with their answers given, then the queue and the session's registers. -/
theorem pairOpensASession : Obligations.PairOpensASession := by
  intro lid gid s
  refine ⟨fun rc1 rc2 codes hc hr => ?configured, fun hc => ?unconfigured⟩
  case configured =>
    rw [exec_pair, pair_configured _ lid gid hc, State.radioLogged_given hr,
      State.radioLogged_given (rc := rc2) (codes := codes) rfl]
    rfl
  case unconfigured => exact gated_unconfigured_eq hc opPair _

/-! ### The phase's bookkeeping and the test for a replacement (43_pairing R164 to R166) -/

/-- At the end of the dwell the bookkeeping enters the Pairing phase (43_pairing R164). -/
theorem State.phaseStep_dwelled (P : Params) {s : State} (hp : s.pairPhase = .discovery)
    (ht : tDiscovery ≤ s.elapsed s.phaseT) : s.phaseStep P = s.dwellExpiry := by
  simp [State.phaseStep, hp, ht]

/-- The slot's id in numbers: the base id plus the slot index modulo 2^16 (43_pairing R165). -/
theorem State.slotId_eq_iff {s : State} {id : Half} :
    s.slotId = id ↔ id.toNat = (s.baseId.toNat + s.elapsed s.phaseT / tSlot) % 65536 := by
  rw [← BitVec.toNat_inj, State.slotId, BitVec.toNat_add, BitVec.toNat_ofNat, Nat.add_mod_mod, eq_comm]

theorem State.replacementDue_iff (P : Params) (s : State) :
    s.replacementDue P = true ↔ s.pairDirty = true ∨ P.tReplace ≤ s.elapsed s.lastAdvT := by
  simp [State.replacementDue]

/-! ### What a replacement broadcasts and writes, by phase (43_pairing R167, R169) -/

theorem State.pairingData_discovery (P : Params) {s : State} (hp : s.pairPhase = .discovery) :
    s.pairingData P = discoveryFrame P s.meshKey s.baseId s.groupId := by
  simp [State.pairingData, hp]

theorem State.pairingData_pairing (P : Params) {s : State} (hp : s.pairPhase = .pairing) :
    s.pairingData P = pairingFrame P s.meshKey s.curId s.groupId s.pairSeq := by
  simp [State.pairingData, hp]

theorem State.replaced_discovery (P : Params) {s : State} (hp : s.pairPhase = .discovery) :
    s.replaced P = { s with pairDirty := false, lastAdvT := s.now } := by
  simp [State.replaced, hp]

theorem State.replaced_pairing (P : Params) {s : State} (hp : s.pairPhase = .pairing) :
    s.replaced P = { s with pairDirty := false, lastAdvT := s.now, pairSeq := P.pairSeqStep s.pairSeq } := by
  simp [State.replaced, hp]

/-! ### A replacement the radio refuses (43_pairing R168) -/

/-- A replacement whose START_ADV is refused writes no register. -/
theorem State.replacement_startRefused (P : Params) {s : State} {rc0 rc : Nat} {codes : List Nat} (hrc : rc ≠ 0)
    (hr : s.radioIn = rc0 :: 0 :: rc :: codes) : s.replacement P =
      { s with
        radioIn := codes
        trace := s.trace ++ loggedCall .stopAdv rc0 ++
          [.radio (.cfgAdvData (s.pairingData P)) 0, .radio (.startAdv (pairingParams P)) rc,
           .warn (.radioStartFailure rc)] } := by
  simp [State.replacement, State.radioLogged_given hr, State.radio_given (rc := 0), State.radio_given (rc := rc), hrc,
    State.warn, State.emit]

/-- A refused replacement writes no register, whichever call is refused. -/
theorem State.replacement_refused (P : Params) {s : State} {rc0 rc : Nat} {codes : List Nat} {atStart : Bool}
    (hrc : rc ≠ 0) (hr : s.radioIn = refusalCodes rc0 rc atStart ++ codes) : s.replacement P =
      { s with radioIn := codes, trace := s.trace ++ refusalEvents P (s.pairingData P) rc0 rc atStart } := by
  cases atStart with
  | false => rw [State.replacement_configRefused P hrc hr, List.append_assoc]; rfl
  | true => rw [State.replacement_startRefused P hrc hr, List.append_assoc]; rfl

/-- A refused replacement is still due. -/
theorem State.replacementDue_of_refused (P : Params) {s : State} {rc0 rc : Nat} {codes : List Nat} {atStart : Bool}
    (hrc : rc ≠ 0) (hr : s.radioIn = refusalCodes rc0 rc atStart ++ codes) (hdue : s.replacementDue P = true) :
    (s.replacement P).replacementDue P = true := by
  rw [State.replacement_refused P hrc hr]
  exact hdue

/-! ### The timeout (43_pairing R163) -/

theorem State.pairingTick_timeout (P : Params) {s : State} (ht : tSession ≤ s.elapsed s.pairT0) :
    s.pairingTick P = s.timeout P := by
  simp [State.pairingTick, ht]

/-- Settles O39: the timeout with both its answers given (`State.timeout_given`). -/
theorem sessionTimesOut : Obligations.SessionTimesOut := by
  intro rc1 rc2 codes s hc hm ht hr
  rw [exec_tick, tick_pairing _ hc hm, State.pairingTick_timeout _ ht, State.timeout_given _ hr, State.respond_eq]

/-! ### A tick of a live session, from the state its bookkeeping leaves (43_pairing R162) -/

/-- The bookkeeping leaves the radio's answers and the trace as they were. -/
theorem State.radioIn_trace_of_phaseStep {P : Params} {s u : State} (hu : s.phaseStep P = u) :
    u.radioIn = s.radioIn ∧ u.trace = s.trace := by
  have hports : u.toPorts = s.toPorts := hu ▸ s.phaseStep_toPorts P
  exact ⟨congrArg Ports.radioIn hports, congrArg Ports.trace hports⟩

section LiveTick

variable {P : Params} {s u : State} (hc : s.configured = true) (hm : s.mode = .pairing)
  (ht : s.elapsed s.pairT0 < tSession) (hu : s.phaseStep P = u)
include hc hm ht hu

/-- Nothing due: the bookkeeping is all. -/
theorem tick_notDue (hdue : u.replacementDue P = false) : tick P s = .next (u.respond .ok []) := by
  subst hu
  rw [tick_pairing P hc hm]
  rcases s.pairingTick_cases P with ⟨hlate, _⟩ | ⟨_, ⟨hyes, _⟩ | ⟨_, htick⟩⟩
  · omega
  · rw [hdue] at hyes; cases hyes
  · rw [htick]

/-- A replacement due: it follows the bookkeeping. -/
theorem tick_due (hdue : u.replacementDue P = true) : tick P s = .next ((u.replacement P).respond .ok []) := by
  subst hu
  rw [tick_pairing P hc hm]
  rcases s.pairingTick_cases P with ⟨hlate, _⟩ | ⟨_, ⟨_, htick⟩ | ⟨hno, _⟩⟩
  · omega
  · rw [htick]
  · rw [hdue] at hno; cases hno

/-- A replacement due, with both calls after STOP_ADV answered 0: it broadcasts `data` and leaves the registers of `w`. -/
theorem tick_granted {w : State} {data : List Byte} {rc : Nat} {codes : List Nat} (hdue : u.replacementDue P = true)
    (hdata : u.pairingData P = data) (hw : u.replaced P = w) (hr : s.radioIn = rc :: 0 :: 0 :: codes) :
    tick P s = .next { w with
      radioIn := codes
      trace := s.trace ++ loggedCall .stopAdv rc ++
        [.radio (.cfgAdvData data) 0, .radio (.startAdv (pairingParams P)) 0, .rsp ⟨.ok, []⟩] } := by
  obtain ⟨hin, htrace⟩ := State.radioIn_trace_of_phaseStep hu
  rw [tick_due hc hm ht hu hdue, State.replacement_granted P (hin.trans hr), State.respond_eq, htrace, hdata, hw]
  simp

/-- A replacement due, with one of the two calls after STOP_ADV refused: only what the bookkeeping wrote is kept. -/
theorem tick_refused {data : List Byte} {rc0 rc : Nat} {codes : List Nat} {atStart : Bool}
    (hdue : u.replacementDue P = true) (hdata : u.pairingData P = data) (hrc : rc ≠ 0)
    (hr : s.radioIn = refusalCodes rc0 rc atStart ++ codes) : tick P s = .next { u with
      radioIn := codes
      trace := s.trace ++ refusalEvents P data rc0 rc atStart ++ [.rsp ⟨.ok, []⟩] } := by
  obtain ⟨hin, htrace⟩ := State.radioIn_trace_of_phaseStep hu
  rw [tick_due hc hm ht hu hdue, State.replacement_refused P hrc (hin.trans hr), State.respond_eq, htrace, hdata]

end LiveTick

/-- Settles O40: the bookkeeping does nothing within the dwell and within a slot, and no replacement is due. -/
theorem quietPairingTick : Obligations.QuietPairingTick := by
  intro P s hc hm ht hphase hclean hrecent
  have hidle : s.phaseStep P = s := by
    rcases hphase with ⟨hp, hdwell⟩ | ⟨hp, hslot⟩
    · exact State.phaseStep_dwelling P hp hdwell
    · exact State.phaseStep_sameSlot P hp (State.slotId_eq_iff.mpr hslot)
  have hdue : s.replacementDue P = false := by
    rw [Bool.eq_false_iff, ne_eq, State.replacementDue_iff]
    rintro (hdirty | hold)
    · rw [hclean] at hdirty; cases hdirty
    · omega
  rw [tick_notDue hc hm ht hidle hdue, State.respond_eq]

/-- Settles O41: a granted replacement in Discovery. -/
theorem discoveryTickBroadcasts : Obligations.DiscoveryTickBroadcasts := fun _ _ _ hc hm hp ht hdwell hdue hr =>
  tick_granted hc hm ht (State.phaseStep_dwelling _ hp hdwell) ((State.replacementDue_iff ..).mpr hdue)
    (State.pairingData_discovery _ hp) (State.replaced_discovery _ hp) hr

/-- Settles O42: the end of the dwell owes a replacement, which is granted in the Pairing phase it enters. -/
theorem dwellExpiryEntersThePairingPhase : Obligations.DwellExpiryEntersThePairingPhase :=
  fun _ _ _ hc hm hp ht hdwell hr =>
    tick_granted hc hm ht (State.phaseStep_dwelled _ hp hdwell) rfl (State.pairingData_pairing _ rfl)
      (State.replaced_pairing _ rfl) hr

/-- Settles O43: a new slot owes a replacement, which is granted with the slot's id and a restarted PAIR_SEQ. -/
theorem newSlotForcesABroadcast : Obligations.NewSlotForcesABroadcast := by
  intro rc codes id s hc hm hp ht hslot hne hr
  obtain rfl := State.slotId_eq_iff.mpr hslot
  exact tick_granted hc hm ht (State.phaseStep_newSlot _ hp hne) rfl (State.pairingData_pairing _ hp)
    (State.replaced_pairing _ hp) hr

/-- Settles O44: a granted replacement in the slot already broadcast. -/
theorem sameSlotTickRebroadcasts : Obligations.SameSlotTickRebroadcasts :=
  fun P _ _ _ hc hm hp ht hslot hdue hr =>
    tick_granted hc hm ht (State.phaseStep_sameSlot P hp (State.slotId_eq_iff.mpr hslot))
      ((State.replacementDue_iff ..).mpr hdue) (State.pairingData_pairing _ hp) (State.replaced_pairing _ hp) hr

/-- Settles O45: a refused replacement keeps every register (`State.replacement_refused`), so a tick that makes one
leaves what its bookkeeping wrote: nothing within the dwell or a slot, else the new phase or the new id. -/
theorem refusedReplacementIsRetried : Obligations.RefusedReplacementIsRetried := by
  intro rc0 rc codes atStart s hrc hr
  refine ⟨fun P => ⟨State.replacement_refused P hrc hr, State.replacementDue_of_refused P hrc hr⟩, fun hc hm ht =>
    ⟨fun hp hdwell hdue => ?dwelling, fun hp hdwell => ?dwelled, fun id hp hslot =>
      ⟨fun hsame hdue => ?sameSlot, fun hne => ?newSlot⟩⟩⟩
  case dwelling =>
    exact tick_refused hc hm ht (State.phaseStep_dwelling _ hp hdwell) ((State.replacementDue_iff ..).mpr hdue)
      (State.pairingData_discovery _ hp) hrc hr
  case dwelled =>
    exact tick_refused hc hm ht (State.phaseStep_dwelled _ hp hdwell) rfl (State.pairingData_pairing _ rfl) hrc hr
  case sameSlot =>
    have hslotId : s.slotId = s.curId := (State.slotId_eq_iff.mpr hslot).trans hsame
    exact tick_refused hc hm ht (State.phaseStep_sameSlot _ hp hslotId) ((State.replacementDue_iff ..).mpr hdue)
      (State.pairingData_pairing _ hp) hrc hr
  case newSlot =>
    obtain rfl := State.slotId_eq_iff.mpr hslot
    exact tick_refused hc hm ht (State.phaseStep_newSlot _ hp hne) rfl (State.pairingData_pairing _ hp) hrc hr

end Sys2Proof.Machine
end

section
/-! What the ticks of one session do to its registers, whatever the radio answers: the pairing property and the ids a
session broadcasts (43_pairing R163 to R165, R173, R174). -/

namespace Sys2Proof.Machine

/-! ### The registers a live tick leaves (43_pairing R162) -/

/-- Before the timeout a tick leaves the registers its bookkeeping wrote, but for those of a replacement. -/
theorem State.pairingTick_live (P : Params) {s : State} (ht : s.elapsed s.pairT0 < tSession) :
    ∃ ps la pd, (s.pairingTick P).toRegisters =
      { (s.phaseStep P).toRegisters with pairSeq := ps, lastAdvT := la, pairDirty := pd } := by
  rcases s.pairingTick_cases P with ⟨hlate, _⟩ | ⟨_, ⟨_, htick⟩ | ⟨_, htick⟩⟩
  · omega
  · obtain ⟨ps, la, pd, _, hregs⟩ := (s.phaseStep P).replacement_effect P
    exact ⟨ps, la, pd, by rw [htick, hregs]⟩
  · exact ⟨_, _, _, by rw [htick]⟩

/-- In the Pairing phase the bookkeeping leaves the slot's id, whether it was the one broadcast or not (43_pairing
R165), and the phase as it was. -/
theorem State.phaseStep_pairing (P : Params) {s : State} (hp : s.pairPhase = .pairing) : ∃ ps pd,
    (s.phaseStep P).toRegisters = { s.toRegisters with curId := s.slotId, pairSeq := ps, pairDirty := pd } := by
  by_cases hs : s.slotId = s.curId
  · exact ⟨_, _, by rw [State.phaseStep_sameSlot P hp hs, hs]⟩
  · exact ⟨_, _, by rw [State.phaseStep_newSlot P hp hs]⟩

/-- A live tick of the Pairing phase leaves the slot's id and writes no other register but those of a replacement. -/
theorem State.pairingTick_pairing (P : Params) {s : State} (ht : s.elapsed s.pairT0 < tSession)
    (hp : s.pairPhase = .pairing) : ∃ ps la pd, (s.pairingTick P).toRegisters =
      { s.toRegisters with curId := s.slotId, pairSeq := ps, lastAdvT := la, pairDirty := pd } := by
  obtain ⟨ps, la, pd, htick⟩ := State.pairingTick_live P ht
  obtain ⟨_, _, hstep⟩ := State.phaseStep_pairing P hp
  exact ⟨ps, la, pd, by rw [htick, hstep]⟩

/-- A live tick at the end of the dwell enters the Pairing phase at NOW with the base id, and writes no other register
but those of a replacement. -/
theorem State.pairingTick_dwelled (P : Params) {s : State} (ht : s.elapsed s.pairT0 < tSession)
    (hp : s.pairPhase = .discovery) (hdwell : tDiscovery ≤ s.elapsed s.phaseT) :
    ∃ ps la pd, (s.pairingTick P).toRegisters = { s.toRegisters with
      pairPhase := .pairing, phaseT := s.now, curId := s.baseId, pairSeq := ps, lastAdvT := la, pairDirty := pd } := by
  obtain ⟨ps, la, pd, htick⟩ := State.pairingTick_live P ht
  exact ⟨ps, la, pd, by rw [htick, State.phaseStep_dwelled P hp hdwell]; rfl⟩

/-! ### The session begun at `t0` with base id `lid` -/

/-- The framer is configured and in the session that PAIR opened at `t0` with base id `lid` (43_pairing R160). -/
structure State.InSession (t0 : Word32) (lid : Half) (s : State) : Prop where
  configured : s.configured = true
  mode : s.mode = .pairing
  pairT0 : s.pairT0 = t0
  baseId : s.baseId = lid

section Run

variable {t0 t : Word32} {lid : Half} {s : State}

/-- PAIR opens the session in Discovery (43_pairing R160). -/
theorem runOps_pair (hc : s.configured = true) (gid : Half) : ∃ u, runOps [(t0, .pair lid gid)] s = .next u ∧
    u.InSession t0 lid ∧ u.pairPhase = .discovery ∧ u.phaseT = t0 ∧ u.curId = lid := by
  have hexec := (exec_pair ..).trans (pair_configured Config.framer lid gid (s := { s with now := t0 }) hc)
  refine ⟨_, runOps_cons hexec [], ⟨?_, rfl, ?_, rfl⟩, rfl, ?_, rfl⟩ <;> simp [State.openSession, hc]

/-- The tick of a run in a session. -/
theorem State.InSession.runOps_tick (h : s.InSession t0 lid) (t : Word32) : runOps [(t, .tick)] s =
    .next ((State.pairingTick Config.framer { s with now := t }).respond .ok []) :=
  runOps_cons ((exec_tick _).trans (Machine.tick_pairing _ (s := { s with now := t }) h.configured h.mode)) []

/-- A tick at the end of the dwell, before the timeout: the session goes on in the Pairing phase (43_pairing R164). -/
theorem State.InSession.tick_dwelled (h : s.InSession t0 lid) (hlive : (t - t0).toNat < tSession)
    (hp : s.pairPhase = .discovery) (hdwell : tDiscovery ≤ (t - s.phaseT).toNat) :
    ∃ u, runOps [(t, .tick)] s = .next u ∧ u.InSession t0 lid ∧ u.pairPhase = .pairing ∧ u.phaseT = t ∧
      u.curId = lid := by
  obtain ⟨_, _, _, hregs⟩ := State.pairingTick_dwelled Config.framer (s := { s with now := t })
    (by rw [← h.pairT0] at hlive; exact hlive) hp hdwell
  refine ⟨_, h.runOps_tick t, ⟨?_, ?_, ?_, ?_⟩, ?_, ?_, ?_⟩ <;>
    simp [hregs, h.configured, h.mode, h.pairT0, h.baseId]

/-- A tick of the Pairing phase before the timeout: the session goes on with the id of the slot (43_pairing R165). -/
theorem State.InSession.tick_pairing (h : s.InSession t0 lid) (hlive : (t - t0).toNat < tSession)
    (hp : s.pairPhase = .pairing) : ∃ u, runOps [(t, .tick)] s = .next u ∧ u.InSession t0 lid ∧
      u.curId = lid + BitVec.ofNat 16 ((t - s.phaseT).toNat / tSlot) := by
  obtain ⟨_, _, _, hregs⟩ := State.pairingTick_pairing Config.framer (s := { s with now := t })
    (by rw [← h.pairT0] at hlive; exact hlive) hp
  refine ⟨_, h.runOps_tick t, ⟨?_, ?_, ?_, ?_⟩, ?_⟩ <;>
    simp [hregs, h.configured, h.mode, h.pairT0, h.baseId, State.slotId, State.elapsed]

/-- A tick at the timeout ends the session and calls START_SCAN (43_pairing R163). -/
theorem State.InSession.tick_timeout (h : s.InSession t0 lid) (hlate : tSession ≤ (t - t0).toNat) :
    ∃ u, runOps [(t, .tick)] s = .next u ∧ u.mode = .normal ∧ u.advState = .idle ∧
      ∃ rc, .radio (.startScan Config.framer.scanWindow) rc ∈ u.trace.drop s.trace.length := by
  have htick := State.pairingTick_timeout Config.framer (s := { s with now := t })
    (by rw [← h.pairT0] at hlate; exact hlate)
  refine ⟨_, (h.runOps_tick t).trans (by rw [htick]), by simp, by simp, ?_⟩
  simp [State.timeout, loggedCall]

end Run

/-- Settles O46: PAIR, the end of the dwell, the second slot and the timeout, each at its elapsed time. -/
theorem pairingPropertyHolds : Obligations.PairingPropertyHolds := by
  intro t0 lid gid s hc
  have elapsed : ∀ d : Word32, t0 + d - t0 = d := fun d => by rw [BitVec.add_comm, BitVec.add_sub_cancel]
  have slotElapsed : t0 + 9000 - (t0 + 4000) = 5000 := by bv_omega
  obtain ⟨a, hrunA, hA, hphaseA, hphaseTA, hidA⟩ := runOps_pair (t0 := t0) (lid := lid) hc gid
  obtain ⟨b, hrunB, hB, hphaseB, hphaseTB, hidB⟩ := hA.tick_dwelled (t := t0 + 4000) (by rw [elapsed]; decide) hphaseA
    (by rw [hphaseTA, elapsed]; decide)
  obtain ⟨c, hrunC, hC, hidC⟩ := hB.tick_pairing (t := t0 + 9000) (by rw [elapsed]; decide) hphaseB
  rw [hphaseTB, slotElapsed] at hidC
  obtain ⟨d, hrunD, hmodeD, hadvD, hscan⟩ := hC.tick_timeout (t := t0 + 60000) (by rw [elapsed]; decide)
  exact ⟨a, b, c, d, hrunA, hA.mode, hphaseA, hidA, hrunB, hB.mode, hphaseB, hidB, hrunC, hC.mode, hidC, hrunD, hmodeD,
    hadvD, hscan⟩

/-! ### The ids a session broadcasts (43_pairing R174) -/

/-- The time since the Pairing phase began is what is left of the session's time when the phase's start is taken off,
across a wrap of NOW too. -/
theorem State.elapsed_phaseT_add {s : State} (h : (s.phaseT - s.pairT0).toNat ≤ s.elapsed s.pairT0) :
    s.elapsed s.phaseT + (s.phaseT - s.pairT0).toNat = s.elapsed s.pairT0 := by
  unfold State.elapsed at *
  bv_omega

/-- Settles O47: of the 60000 ms of a session at most 55999 are left for the slots of its Pairing phase. -/
theorem sessionSweepsAtMostTwelveIds : Obligations.SessionSweepsAtMostTwelveIds := by
  intro s t hc hm hp hdwell horder hlive hexec
  rw [exec_tick, Machine.tick_pairing _ hc hm] at hexec
  obtain rfl := Host.Outcome.next.inj hexec
  have hsum := State.elapsed_phaseT_add horder
  obtain ⟨_, _, _, hregs⟩ := State.pairingTick_pairing Config.framer hlive hp
  refine ⟨s.elapsed s.phaseT / tSlot, ?_, by rw [State.respond_toRegisters, hregs]; rfl⟩
  rw [tSlot]
  omega

end Sys2Proof.Machine
end

section
/-! What every pairing frame keeps of 43_pairing R180 to R185: the mesh key's digits, the trailer, 31 bytes. -/

namespace Sys2Proof.Machine

/-! ### The characters of the digits (43_pairing R182) -/

theorem hexChar_toNat_of_lt (upper : Bool) {d : BitVec 4} (h : d.toNat < 10) :
    (hexChar upper d).toNat = 48 + d.toNat := by
  rw [hexChar, if_pos h, BitVec.toNat_ofNat]
  omega

/-- The letters begin at 0x41 or 0x61, which stands for 10. -/
theorem hexChar_toNat_of_le (upper : Bool) {d : BitVec 4} (h : 10 ≤ d.toNat) :
    (hexChar upper d).toNat = (if upper then 55 else 87) + d.toNat := by
  have hd : d.toNat < 16 := d.isLt
  rw [hexChar, if_neg (by omega), BitVec.toNat_ofNat]
  cases upper <;> simp <;> omega

/-! ### The two forms of a pairing frame are legal (43_pairing R181, R182, R185) -/

/-- A packet that begins with the key's digits in index order spells the key. -/
theorem spellsKey_keyDigits_append (key : Bytes4) (rest : List Byte) : SpellsKey key (keyDigits key ++ rest) :=
  ⟨key.b0, key.b1, key.b2, key.b3, hexByte true key.b0, hexByte true key.b1, hexByte true key.b2, hexByte true key.b3,
    [], [], [], [], rest, .refl _, ⟨true, true, rfl⟩, ⟨true, true, rfl⟩, ⟨true, true, rfl⟩, ⟨true, true, rfl⟩, rfl⟩

/-- Every pairing frame keeps what the spec states of it: the framer's own where it is legal, and the digits with their
trailer. -/
theorem pairingFrame_legal (P : Params) (key : Bytes4) (lid gid : Half) (pseq : Byte) :
    pairingLegal P key (pairingFrame P key lid gid pseq) = true := by
  rcases pairingFrame_cases P key lid gid pseq with ⟨hlegal, hframe⟩ | ⟨_, hframe⟩
  · rw [hframe]
    exact hlegal
  · refine (pairingLegal_iff ..).mpr ⟨pairingFrame_length_le .., ?_⟩
    rw [hframe]
    exact ⟨spellsKey_keyDigits_append .., _, rfl⟩

/-- The cut of a trailer is none where the bytes before it, of which eight count, leave room for it (log 4). -/
theorem pairTrailer_eq_pairCheck_of_room {P : Params} {head : List Byte}
    (h : (P.pairCheck head).length + min head.length 8 ≤ advLimit) : pairTrailer P head = P.pairCheck head :=
  List.take_of_length_le (by omega)

theorem discoveryFrame_length_le (P : Params) (key : Bytes4) (lid gid : Half) :
    (discoveryFrame P key lid gid).length ≤ advLimit := List.length_take_le ..

/-- Settles O48: every pairing frame is legal (`pairingFrame_legal`), and what that means (`pairingLegal_iff`). -/
theorem pairingFrameCarriesKeyAndTrailer : Obligations.PairingFrameCarriesKeyAndTrailer := by
  refine ⟨fun P key lid gid pseq => ?_, fun upper d => ⟨hexChar_toNat_of_lt upper, hexChar_toNat_of_le upper⟩⟩
  obtain ⟨hlen, hkey, head, htrailer⟩ := (pairingLegal_iff ..).mp (pairingFrame_legal P key lid gid pseq)
  exact ⟨hkey, ⟨head, htrailer, pairTrailer_eq_pairCheck_of_room⟩, hlen, discoveryFrame_length_le ..⟩

end Sys2Proof.Machine
end

section
/-! The eight producer operations in a session (43_pairing R171): what they answer from two states that differ in the
registers of the scheduler and of the session alone. -/

namespace Sys2Proof.Machine

/-! ### Two answers that differ in the session alone -/

/-- What an operation answers from `s`, and from `s` with the session's registers of `r`, when those registers have no
say in it: SEQ and the queue written alike, and the same events sent, none of them a radio call; or the same fault. -/
inductive SessionBlind (r : Registers) (s : State) : Result → Result → Prop
  | next (seq : Byte) (q : List Command) (evs : List Event) (h : ∀ e ∈ evs, e.isRadio = false) :
      SessionBlind r s (.next { s with seq := seq, q := q, trace := s.trace ++ evs })
        (.next { s.withSession r with seq := seq, q := q, trace := s.trace ++ evs })
  | fault (f : Fault) : SessionBlind r s (.fault f) (.fault f)

namespace SessionBlind

variable {r : Registers} {s : State}

/-- An operation turned away reads and writes no register. -/
theorem reject (w : Warning) (status : Status) :
    SessionBlind r s (.next (s.reject w status)) (.next ((s.withSession r).reject w status)) := by
  rw [State.reject_eq, State.reject_eq]
  exact .next s.seq s.q (turnedAway w status) (by simp [turnedAway, Event.isRadio])

/-- A response after SEQ and the queue are written. -/
theorem respond (seq : Byte) (q : List Command) (status : Status) (data : List Byte) :
    SessionBlind r s (.next (State.respond { s with seq := seq, q := q } status data))
      (.next (State.respond { s.withSession r with seq := seq, q := q } status data)) :=
  .next seq q [.rsp ⟨status, data⟩] (by simp [Event.isRadio])

/-- The gate reads CONFIGURED only (44_host_ops R205). -/
theorem gated {x y : Result} (op : Byte) (h : SessionBlind r s x y) :
    SessionBlind r s (gated op s x) (gated op (s.withSession r) y) := by
  cases hc : s.configured with
  | false =>
    rw [gated_unconfigured hc, gated_unconfigured (s := s.withSession r) hc]
    exact reject ..
  | true => rwa [gated_configured hc, gated_configured (s := s.withSession r) hc]

/-- A test that comes out alike in both states turns the operation away or lets the rest of it answer. -/
theorem checked {c : Prop} [Decidable c] {x y : Result} (w : Warning) (status : Status) (h : SessionBlind r s x y) :
    SessionBlind r s (if c then .next (s.reject w status) else x)
      (if c then .next ((s.withSession r).reject w status) else y) := by
  split
  · exact reject ..
  · exact h

/-- What is blind to the session after SEQ is advanced is so from the start. -/
theorem after_seq {seq : Byte} {x y : Result} (h : SessionBlind r { s with seq := seq } x y) : SessionBlind r s x y := by
  cases h with
  | next seq' q evs hevs => exact .next seq' q evs hevs
  | fault f => exact .fault f

end SessionBlind

/-! ### The producer operations (43_pairing R171) -/

/-- Everything the body of ENQ can answer, in the order of its tests (41_queue R120, 20_memory R41). -/
theorem enqBody_eq_ite (P : Params) (frame : List Byte) (s : State) : enqBody P frame s =
    if s.cap.toNat ≤ s.q.length then .next (s.reject (.queueFull s.q.length s.cap.toNat) .queueFull)
    else if s.q.length < qdepthMax P then .next ({ s with q := s.q ++ [(⟨frame, s.now, 0⟩ : Command)] }.respond .ok [])
    else .fault .fifoOverflow := by
  unfold enqBody State.qPush State.qLen
  by_cases hd : s.q.length < qdepthMax P <;> simp [hd]

theorem enqBody_sessionBlind (P : Params) (frame : List Byte) (r : Registers) (s : State) :
    SessionBlind r s (enqBody P frame s) (enqBody P frame (s.withSession r)) := by
  rw [enqBody_eq_ite, enqBody_eq_ite]
  refine .checked _ _ ?_
  show SessionBlind r s (if s.q.length < qdepthMax P then _ else _) (if s.q.length < qdepthMax P then _ else _)
  split
  · exact .respond s.seq _ ..
  · exact .fault _

/-- A generated frame depends on MESHKEY and SEQ only (40_codec R97), and goes out as response data. -/
theorem SessionBlind.generated (P : Params) (ct : BitVec 3) (tid : Half) (payload : List Byte) (fwd : Bool)
    (r : Registers) (s : State) : SessionBlind r s
      (.next ((s.genFrame P ct tid payload fwd).2.respond .ok (frameData (s.genFrame P ct tid payload fwd).1)))
      (.next (((s.withSession r).genFrame P ct tid payload fwd).2.respond .ok
        (frameData ((s.withSession r).genFrame P ct tid payload fwd).1))) :=
  .respond (seqSucc s.seq) s.q ..

/-- A generated frame is given to the body of ENQ. -/
theorem SessionBlind.enqueued (P : Params) (ct : BitVec 3) (tid : Half) (payload : List Byte) (fwd : Bool)
    (r : Registers) (s : State) : SessionBlind r s
      (enqBody P (s.genFrame P ct tid payload fwd).1 (s.genFrame P ct tid payload fwd).2)
      (enqBody P ((s.withSession r).genFrame P ct tid payload fwd).1
        ((s.withSession r).genFrame P ct tid payload fwd).2) :=
  .after_seq (seq := seqSucc s.seq) (enqBody_sessionBlind ..)

/-- Every operation but SETUP, TICK and PAIR is blind to the session. -/
theorem exec_sessionBlind {i : Instr} (hi : i.opcode ∉ [opSetup, opTick, opPair]) (r : Registers) (s : State) :
    SessionBlind r s (exec i s) (exec i (s.withSession r)) := by
  cases i with
  | setup key cap intMin intMax advDur advGap => simp [Instr.opcode] at hi
  | tick => simp [Instr.opcode] at hi
  | gencmd ct fwd rsv tid payload => exact .gated _ (.checked _ _ (.checked _ _ (.generated ..)))
  | sctrl tid light => exact .gated _ (.checked _ _ (.checked _ _ (.generated ..)))
  | enq frame => exact .gated _ (enqBody_sessionBlind ..)
  | enqraw ct fwd rsv tid payload => exact .gated _ (.checked _ _ (.checked _ _ (.enqueued ..)))
  | clr => exact .gated _ (.respond s.seq [] ..)
  | qsize => exact .gated _ (.respond s.seq s.q ..)
  | qempty => exact .gated _ (.respond s.seq s.q ..)
  | pair lid gid => simp [Instr.opcode] at hi
  | freset lid => exact .gated _ (.checked _ _ (.enqueued ..))

/-- Settles O57: what is blind to the session (`exec_sessionBlind`) writes SEQ, the queue and the trace alone. -/
theorem producerOperationsIgnoreTheSession : Obligations.ProducerOperationsIgnoreTheSession := by
  intro i s t r hi hexec
  have hblind := exec_sessionBlind hi r s
  rw [hexec] at hblind
  generalize exec i (s.withSession r) = answer at hblind
  cases hblind with
  | next seq q evs hevs =>
    exact ⟨rfl, rfl, rfl, rfl, rfl, rfl, rfl, rfl, rfl, rfl, rfl, rfl, rfl, rfl, rfl, rfl, evs, rfl, hevs⟩

end Sys2Proof.Machine
end

section
/-! The system and compound operations through `step` and `exec` (44_host_ops R200 to R205): where the framer turns an
operation away, SETUP, and the generated frames that ENQRAW and FRESET enqueue. -/

namespace Sys2Proof.Machine

/-! ### Reserved opcodes (30_encoding R79, 44_host_ops R204) -/

/-- The reserved ranges hold no opcode of the map (30_encoding R78). -/
theorem not_mem_opcodes_of_reserved {op : Byte}
    (h : op.toNat = 0x00 ∨ (0x03 ≤ op.toNat ∧ op.toNat ≤ 0x0F) ∨ (0x12 ≤ op.toNat ∧ op.toNat ≤ 0x1F) ∨
      (0x25 ≤ op.toNat ∧ op.toNat ≤ 0x2F) ∨ 0x32 ≤ op.toNat) : op ∉ opcodes := by
  intro hop
  simp only [opcodes, List.mem_cons, List.not_mem_nil, or_false] at hop
  rcases hop with rfl | rfl | rfl | rfl | rfl | rfl | rfl | rfl | rfl | rfl | rfl <;> exact absurd h (by decide)

/-- Settles O4: a byte in a reserved range is no opcode, so the decoder names it (`decodeOp_reserved`) and the step
turns it away without looking at a register. -/
theorem reservedOpcodeAnswersIllegalOp : Obligations.ReservedOpcodeAnswersIllegalOp := by
  intro op operands t rest s hreserved hpending
  rw [step_op hpending, decodeOp_reserved (not_mem_opcodes_of_reserved hreserved)]
  exact congrArg Host.Outcome.next (State.reject_eq ..)

/-! ### The gate (44_host_ops R205) -/

/-- Every operation but SETUP stands behind the gate, under its own opcode. -/
theorem exec_eq_gated {i : Instr} (hi : i.opcode ≠ opSetup) (s : State) :
    ∃ body, exec i s = gated i.opcode s body := by
  cases i with
  | setup key cap intMin intMax advDur advGap => exact absurd rfl hi
  | tick => exact ⟨_, rfl⟩
  | gencmd ct fwd rsv tid payload => exact ⟨_, rfl⟩
  | sctrl tid light => exact ⟨_, rfl⟩
  | enq frame => exact ⟨_, rfl⟩
  | enqraw ct fwd rsv tid payload => exact ⟨_, rfl⟩
  | clr => exact ⟨_, rfl⟩
  | qsize => exact ⟨_, rfl⟩
  | qempty => exact ⟨_, rfl⟩
  | pair lid gid => exact ⟨_, rfl⟩
  | freset lid => exact ⟨_, rfl⟩

/-- Settles O9: the gate every such operation stands behind (`exec_eq_gated`), closed. -/
theorem unconfiguredFramerTurnsOperationsAway : Obligations.UnconfiguredFramerTurnsOperationsAway := by
  intro i s hi hc
  obtain ⟨body, hgated⟩ := exec_eq_gated hi s
  rw [hgated, gated_unconfigured_eq hc]

/-! ### SETUP (44_host_ops R200) -/

section Setup

variable {P : Params} {s : State} (key : Bytes4) {cap : Half} (intMin intMax : Half) (advDur advGap : Word32)

theorem setup_pairing (hm : s.mode = .pairing) :
    setup P key cap intMin intMax advDur advGap s =
      .next { s with trace := s.trace ++ turnedAway .busy .busy } := by
  simp [setup, hm, State.reject_eq]

theorem setup_tooDeep (hm : s.mode = .normal) (hd : qdepthMax P < cap.toNat) :
    setup P key cap intMin intMax advDur advGap s =
      .next { s with trace := s.trace ++ turnedAway (.badOperand opSetup) .badOperand } := by
  simp [setup, hm, hd, State.rejectOperand_eq]

/-- SETUP where no advertisement runs calls no radio primitive. -/
theorem setup_offAir (hm : s.mode = .normal) (ha : s.advState ≠ .advertising) (hd : cap.toNat ≤ qdepthMax P) :
    setup P key cap intMin intMax advDur advGap s =
      .next ((s.qClear.configure key cap intMin intMax advDur advGap).respond .ok []) := by
  cases hadv : s.advState with
  | advertising => exact absurd hadv ha
  | idle => simp [setup, hm, hadv, Nat.not_lt.mpr hd]
  | gap => simp [setup, hm, hadv, Nat.not_lt.mpr hd]

end Setup

/-- Settles O12: the configuration is loaded at once (`setup_offAir`), or after STOP_ADV with its answer given
(`setup_advertising`). -/
theorem setupLoadsTheConfiguration : Obligations.SetupLoadsTheConfiguration := by
  intro key cap intMin intMax advDur advGap s hm hd
  rw [exec_setup]
  refine ⟨fun ha => setup_offAir key intMin intMax advDur advGap hm ha hd, fun ha rc codes hr => ?_⟩
  rw [setup_advertising _ _ _ _ _ _ hm ha hd, State.radioLogged_given hr]
  rfl

/-- Settles O13: a session (`setup_pairing`), or in Normal mode too large a capacity (`setup_tooDeep`). -/
theorem setupIsTurnedAway : Obligations.SetupIsTurnedAway := by
  intro P key cap intMin intMax advDur advGap s
  exact ⟨setup_pairing key intMin intMax advDur advGap, setup_tooDeep key intMin intMax advDur advGap⟩

/-! ### ENQRAW (44_host_ops R202) -/

section Enqraw

variable {P : Params} {s : State} (hc : s.configured = true)
include hc

theorem enqraw_reserved {rsv : BitVec 4} (hr : rsv ≠ 0) (ct : BitVec 3) (fwd : Bool) (tid : Half)
    (payload : List Byte) : enqraw P ct fwd rsv tid payload s =
      .next { s with trace := s.trace ++ turnedAway (.badOperand opEnqraw) .badOperand } := by
  have hclear : reservedClear rsv = false := Bool.eq_false_iff.mpr (mt (reservedClear_iff rsv).mp hr)
  simp [enqraw, hc, hclear, State.rejectOperand_eq]

variable {payload : List Byte}

theorem enqraw_tooLong (hf : ¬ P.rfLen (4 + payload.length) ≤ frameMax) (ct : BitVec 3) (fwd : Bool) (tid : Half) :
    enqraw P ct fwd 0 tid payload s =
      .next { s with trace := s.trace ++ turnedAway (.badOperand opEnqraw) .badOperand } := by
  have hfits : frameFits P payload.length = false := Bool.eq_false_iff.mpr (mt (frameFits_iff ..).mp hf)
  simp [enqraw, hc, hfits, State.rejectOperand_eq]

/-- With room in the queue the generated frame is its newest entry. -/
theorem enqraw_room (hf : P.rfLen (4 + payload.length) ≤ frameMax) (hd : s.cap.toNat ≤ qdepthMax P)
    (hq : s.q.length < s.cap.toNat) (ct : BitVec 3) (fwd : Bool) (tid : Half) :
    enqraw P ct fwd 0 tid payload s = .next { s with
      seq := seqSucc s.seq
      q := s.q ++ [⟨rfFrame P (s.genBody P ct tid payload fwd).1, s.now, 0⟩]
      trace := s.trace ++ [.rsp ⟨.ok, []⟩] } :=
  (enqraw_accepted hc hf ct fwd tid).trans (enqBody_room (s := { s with seq := seqSucc s.seq }) hq hd)

/-- On a full queue the generated frame is dropped, and its sequence number stays consumed. -/
theorem enqraw_full (hf : P.rfLen (4 + payload.length) ≤ frameMax) (hq : s.cap.toNat ≤ s.q.length)
    (ct : BitVec 3) (fwd : Bool) (tid : Half) :
    enqraw P ct fwd 0 tid payload s = .next { s with
      seq := seqSucc s.seq
      trace := s.trace ++ turnedAway (.queueFull s.q.length s.cap.toNat) .queueFull } := by
  rw [enqraw_accepted hc hf, enqBody_full (s := { s with seq := seqSucc s.seq }) hq, State.reject_eq]

end Enqraw

/-- Settles O30: room, a full queue, a reserved bit set, not configured; in the first two the frame fits or is too
long. -/
theorem enqrawEnqueuesTheFrame : Obligations.EnqrawEnqueuesTheFrame := by
  intro ct fwd rsv tid payload s
  rw [exec_enqraw]
  refine ⟨?room, ?full, fun hc hr => enqraw_reserved hc hr ct fwd tid payload,
    fun hc => gated_unconfigured_eq hc opEnqraw _⟩
  case room =>
    rintro hc rfl hd hq
    split
    case isTrue hf => exact enqraw_room hc hf hd hq ct fwd tid
    case isFalse hf => exact enqraw_tooLong hc hf ct fwd tid
  case full =>
    rintro hc rfl hq
    split
    case isTrue hf => exact enqraw_full hc hf hq ct fwd tid
    case isFalse hf => exact enqraw_tooLong hc hf ct fwd tid

/-! ### FRESET (44_host_ops R203) -/

theorem freset_tooLong {P : Params} {s : State} (hc : s.configured = true)
    (hf : ¬ P.rfLen (4 + fresetLen) ≤ frameMax) (lid : Half) :
    freset P lid s = .next { s with trace := s.trace ++ turnedAway (.badOperand opFreset) .badOperand } := by
  have hfits : frameFits P fresetLen = false := Bool.eq_false_iff.mpr (mt (frameFits_iff ..).mp hf)
  simp [freset, hc, hfits, State.rejectOperand_eq]

/-- Settles O32: both give the same generated frame to the body of ENQ (`freset_accepted`, `enqraw_accepted`). -/
theorem fresetIsAnEnqrawOfZeros : Obligations.FresetIsAnEnqrawOfZeros := fun _ lid _ hc hf =>
  (freset_accepted hc hf lid).trans (enqraw_accepted hc hf ctControl true lid).symm

/-- Settles O31: where the frame fits, FRESET is an ENQRAW (`fresetIsAnEnqrawOfZeros`), with room or on a full queue. -/
theorem fresetEnqueuesTheZeroedFrame : Obligations.FresetEnqueuesTheZeroedFrame := by
  intro lid s hc
  rw [exec_freset]
  refine ⟨fun hd hq => ?room, fun hq => ?full⟩
  case room =>
    split
    case isTrue hf => rw [fresetIsAnEnqrawOfZeros _ lid s hc hf]; exact enqraw_room hc hf hd hq 5 true lid
    case isFalse hf => exact freset_tooLong hc hf lid
  case full =>
    split
    case isTrue hf => rw [fresetIsAnEnqrawOfZeros _ lid s hc hf]; exact enqraw_full hc hf hq 5 true lid
    case isFalse hf => exact freset_tooLong hc hf lid

end Sys2Proof.Machine
end

section
/-! The light-payload mapper outside the framer (45_light_payload_contract R220 to R226): its scaled bytes as whole
parts of rational numbers, then the payload case by case. -/

namespace Sys2Proof.Machine

/-! ### The scaled bytes (45 R223, R225) -/

/-- The model's rounding is Mathlib's natural floor. -/
theorem floor_toNat_eq_natFloor (x : Rat) : x.floor.toNat = ⌊x⌋₊ := Int.floor_toNat x

/-- A channel within range does not wrap. -/
theorem lightScale_toNat {x : Rat} (hx : x ≤ 1) : (lightScale x).toNat = ⌊x * 255⌋₊ := by
  have hle : ⌊x * 255⌋₊ ≤ 255 := Nat.floor_le_of_le (by push_cast; linarith)
  rw [lightScale, floor_toNat_eq_natFloor, BitVec.toNat_ofNat]
  omega

theorem lightScale_zero : lightScale 0 = 0x00 :=
  BitVec.eq_of_toNat_eq (by rw [lightScale_toNat zero_le_one]; simp)

theorem lightScale_one : lightScale 1 = 0xFF :=
  BitVec.eq_of_toNat_eq (by rw [lightScale_toNat le_rfl]; simp)

/-- Bit 7 of the brightness byte is the light being on. -/
theorem brightnessByte_bit7 (x : Rat) : (brightnessByte x).getLsbD 7 = true := by
  simp [brightnessByte]

/-- Bits 6:0 hold every number up to 127 beside bit 7. -/
theorem extractLsb'_or_bit7_toNat {n : Nat} (hn : n ≤ 127) :
    (((0x80 : Byte) ||| BitVec.ofNat 8 n).extractLsb' 0 7).toNat = n := by
  have hbit7 : (0x80 : Byte).extractLsb' 0 7 = 0#7 := by decide
  rw [BitVec.extractLsb'_or, hbit7, BitVec.zero_or, BitVec.extractLsb'_toNat, BitVec.toNat_ofNat]
  omega

/-- Within range the minimum of R223 is the scaled brightness itself. -/
theorem brightnessByte_low_toNat {x : Rat} (hx : x ≤ 1) :
    ((brightnessByte x).extractLsb' 0 7).toNat = ⌊x * 127⌋₊ := by
  have hle : x * 127 ≤ 127 := by linarith
  rw [brightnessByte, min_eq_left hle, floor_toNat_eq_natFloor]
  exact extractLsb'_or_bit7_toNat (Nat.floor_le_of_le (by exact_mod_cast hle))

/-! ### The bytes of a colour light (45 R225) -/

theorem colourBytes_cases (l : LightState) : ∃ b1 b2 b3 : Byte, colourBytes l = [b1, b2, b3] ∧
    (l.rgb = true → b1 = lightScale l.blue ∧ b2 = lightScale l.red ∧ b3 = lightScale l.green) ∧
    (l.rgb = false → b1 = 0 ∧ b2 = 0 ∧ b3 = 0) := by
  unfold colourBytes
  split
  case isTrue h => exact ⟨_, _, _, rfl, by simp, by simp [h]⟩
  case isFalse h => exact ⟨_, _, _, rfl, by simp [h], by simp⟩

/-- COLD_WARM_WHITE comes before COLOR_TEMPERATURE. -/
theorem whiteBytes_cases (l : LightState) : ∃ b4 b5 : Byte, whiteBytes l = [b4, b5] ∧
    (l.coldWarmWhite = true → b4 = lightScale l.warm ∧ b5 = lightScale l.cold) ∧
    (l.coldWarmWhite = false → l.colorTemperature = true →
      b4 = lightScale (1 - temperaturePosition l.mireds) ∧ b5 = lightScale (temperaturePosition l.mireds)) ∧
    (l.coldWarmWhite = false → l.colorTemperature = false → b4 = 0 ∧ b5 = 0) := by
  unfold whiteBytes
  split
  case isTrue hcww => exact ⟨_, _, rfl, by simp, by simp [hcww], by simp [hcww]⟩
  case isFalse hcww =>
    split
    case isTrue hct => exact ⟨_, _, rfl, by simp [hcww], by simp, by simp [hct]⟩
    case isFalse hct => exact ⟨_, _, rfl, by simp [hcww], by simp [hct], by simp⟩

theorem whiteBytes_temperature {l : LightState} (hcww : l.coldWarmWhite = false) (hct : l.colorTemperature = true) :
    whiteBytes l = [lightScale (1 - temperaturePosition l.mireds), lightScale (temperaturePosition l.mireds)] := by
  obtain ⟨b4, b5, hwhite, -, htemp, -⟩ := whiteBytes_cases l
  obtain ⟨rfl, rfl⟩ := htemp hcww hct
  exact hwhite

/-- The model writes R225's range of mireds as a difference. -/
theorem temperaturePosition_eq (mireds : Rat) : temperaturePosition mireds = max 0 (min 1 ((mireds - 153) / 347)) := by
  norm_num [temperaturePosition]

theorem temperaturePosition_cold {mireds : Rat} (h : mireds ≤ 153) : temperaturePosition mireds = 0 := by
  have hneg : (mireds - 153) / 347 ≤ 0 := by linarith
  rw [temperaturePosition_eq]
  exact max_eq_left ((min_le_right ..).trans hneg)

theorem temperaturePosition_warm {mireds : Rat} (h : 500 ≤ mireds) : temperaturePosition mireds = 1 := by
  have hone : 1 ≤ (mireds - 153) / 347 := by linarith
  rw [temperaturePosition_eq, min_eq_left hone]
  exact max_eq_right zero_le_one

/-! ### The payload (45 R221 to R226) -/

theorem lightPayload_off {l : LightState} (h : l.on = false) : lightPayload l = [0x00] := by
  simp [lightPayload, h]

section InContract

variable {l : LightState} (hon : l.on = true) (hin : lightInContract l = true)
include hon hin

theorem lightPayload_white (hw : l.white = true) : lightPayload l = [brightnessByte l.brightness] := by
  simp [lightPayload, hon, hin, hw]

theorem lightPayload_colour (hw : l.white = false) :
    lightPayload l = brightnessByte l.brightness :: (colourBytes l ++ whiteBytes l) := by
  simp [lightPayload, hon, hin, hw]

theorem lightPayload_drop_four (hw : l.white = false) : (lightPayload l).drop 4 = whiteBytes l := by
  obtain ⟨b1, b2, b3, hcolour, -⟩ := colourBytes_cases l
  rw [lightPayload_colour hon hin hw, hcolour]
  rfl

end InContract

/-- Settles O59: off, white only (`lightPayload_white`), or six bytes, those after the first by `colourBytes_cases` and
`whiteBytes_cases`; the bounds are those of the natural floor. -/
theorem lightPayloadShape : Obligations.LightPayloadShape := by
  refine ⟨fun l => ⟨lightPayload_off, fun hon hin => ⟨lightPayload_white hon hin, fun hw => ?six⟩⟩,
    fun x hx0 hx1 => ?bounds⟩
  case six =>
    obtain ⟨b1, b2, b3, hcolour, hrgb, hdark⟩ := colourBytes_cases l
    obtain ⟨b4, b5, hwhite, hcww, htemp, hzero⟩ := whiteBytes_cases l
    refine ⟨b1, b2, b3, b4, b5, ?_, hrgb, hdark, hcww, ?_, hzero⟩
    · rw [lightPayload_colour hon hin hw, hcolour, hwhite]
      rfl
    · rintro hnot hct t rfl
      rw [← temperaturePosition_eq]
      exact htemp hnot hct
  case bounds =>
    rw [brightnessByte_low_toNat hx1, lightScale_toNat hx1]
    exact ⟨brightnessByte_bit7 x, Nat.floor_le (by positivity), Nat.lt_floor_add_one _,
      Nat.floor_le (by positivity), Nat.lt_floor_add_one _⟩

/-- Settles O60: B4 and B5 are the interpolated pair (`whiteBytes_temperature`), and the position between the end points
is 0 up to 153 mireds and 1 from 500 on. -/
theorem colourTemperatureEndPoints : Obligations.ColourTemperatureEndPoints := by
  intro l hon hin hw hcww hct
  rw [lightPayload_drop_four hon hin hw, whiteBytes_temperature hcww hct]
  constructor
  · intro hcold
    rw [temperaturePosition_cold hcold, sub_zero, lightScale_one, lightScale_zero]
  · intro hwarm
    rw [temperaturePosition_warm hwarm, sub_self, lightScale_one, lightScale_zero]

end Sys2Proof.Machine
end

section
/-! The RESET input (70_reset R260), and the one caller of START_SCAN (70_reset R263): what each operation but the
session's timeout sends is free of that call. -/

namespace Sys2Proof.Machine

/-! ### RESET (70_reset R260) -/

/-- Settles O7: `step_reset` takes the input and leaves the registers of the reset state, whose values O8 states. -/
theorem resetInputRestoresTheResetTable : Obligations.ResetInputRestoresTheResetTable := by
  intro rest s hpending
  obtain ⟨hcap, hconfigured, hseq, hq, hmode, hadv⟩ := resetStateHoldsTheResetTable
  exact ⟨_, step_reset hpending, hcap, hconfigured, hseq, hq, hmode, hadv, rfl, rfl⟩

/-! ### Outputs without START_SCAN -/

/-- Any event but a START_SCAN call, a response included. -/
def Event.noScan (e : Event) : Bool := !e.isStartScan

theorem Event.noScan_iff (e : Event) : e.noScan = true ↔ e.isStartScan = false := by
  simp [Event.noScan]

theorem Event.noScan_of_inTickNoScan {e : Event} (h : e.inTickNoScan = true) : e.noScan = true := by
  simp only [Event.inTickNoScan, Bool.and_eq_true] at h
  exact h.2

theorem Event.noScan_of_not_isRadio {e : Event} (h : e.isRadio = false) : e.noScan = true := by
  cases e with
  | radio call rc => cases h
  | warn w => rfl
  | rsp r => rfl

/-- The events an operation adds to the trace are the outputs. -/
theorem State.Outputs.of_mem_drop {ok : Event → Bool} {s t : State} (h : s.Outputs ok t) {e : Event}
    (he : e ∈ t.trace.drop s.trace.length) : ok e = true := by
  obtain ⟨_, _, evs, htrace, hok⟩ := h
  rw [htrace, List.drop_left] at he
  exact hok e he

theorem State.outputs_respond_noScan (s : State) (status : Status) (data : List Byte) :
    s.Outputs Event.noScan (s.respond status data) :=
  State.outputs_emit rfl s

theorem State.outputs_reject_noScan (s : State) (w : Warning) (status : Status) :
    s.Outputs Event.noScan (s.reject w status) :=
  (State.outputs_emit rfl s).trans (State.outputs_respond_noScan _ status [])

/-- The gate's own answer holds no call (44_host_ops R205). -/
theorem gated_outputs_noScan {op : Byte} {s t : State} {r : Result} (h : gated op s r = .next t)
    (hbody : s.configured = true → r = .next t → s.Outputs Event.noScan t) : s.Outputs Event.noScan t := by
  rcases gated_next h with ⟨_, rfl⟩ | ⟨hc, hr⟩
  · exact s.outputs_reject_noScan ..
  · exact hbody hc hr

/-! ### The operations one by one -/

/-- SETUP calls STOP_ADV at most (44_host_ops R200). -/
theorem setup_outputs_noScan {P : Params} {key : Bytes4} {cap intMin intMax : Half} {advDur advGap : Word32}
    {s t : State} (h : setup P key cap intMin intMax advDur advGap s = .next t) : s.Outputs Event.noScan t := by
  cases hm : s.mode with
  | pairing =>
    rw [setup_pairing key intMin intMax advDur advGap hm, ← State.reject_eq] at h
    obtain rfl := Host.Outcome.next.inj h
    exact s.outputs_reject_noScan ..
  | normal =>
    by_cases hd : qdepthMax P < cap.toNat
    · rw [setup_tooDeep key intMin intMax advDur advGap hm hd, ← State.reject_eq] at h
      obtain rfl := Host.Outcome.next.inj h
      exact s.outputs_reject_noScan ..
    · by_cases ha : s.advState = .advertising
      · rw [setup_advertising _ _ _ _ _ _ hm ha (Nat.not_lt.mp hd)] at h
        obtain rfl := Host.Outcome.next.inj h
        have hstop := State.outputs_radioLogged (ok := Event.noScan) P .stopAdv s (fun _ => rfl) (fun _ => rfl)
        exact (hstop.trans (State.outputs_of_ports rfl)).trans (State.outputs_respond_noScan _ .ok [])
      · rw [setup_offAir key intMin intMax advDur advGap hm ha (Nat.not_lt.mp hd)] at h
        obtain rfl := Host.Outcome.next.inj h
        exact (State.outputs_of_ports rfl).trans (State.outputs_respond_noScan _ .ok [])

/-- PAIR calls STOP_SCAN and STOP_ADV (43_pairing R160). -/
theorem pair_outputs_noScan {P : Params} {lid gid : Half} {s t : State} (h : pair P lid gid s = .next t) :
    s.Outputs Event.noScan t := by
  refine gated_outputs_noScan h fun _ hbody => ?_
  obtain rfl := Host.Outcome.next.inj hbody
  have hscan := State.outputs_radioLogged (ok := Event.noScan) P .stopScan s (fun _ => rfl) (fun _ => rfl)
  have hadv := hscan.trans (State.outputs_radioLogged P .stopAdv _ (fun _ => rfl) (fun _ => rfl))
  exact (hadv.trans (State.outputs_of_ports rfl)).trans (State.outputs_respond_noScan _ .ok [])

/-- A tick starts the scan only where the session has timed out (42_scheduler R140, 43_pairing R162, R163). -/
theorem tick_outputs_noScan {P : Params} {s t : State} (h : tick P s = .next t)
    (hlive : s.mode = .pairing → s.elapsed s.pairT0 < tSession) : s.Outputs Event.noScan t := by
  refine gated_outputs_noScan h fun hc _ => ?_
  cases hm : s.mode with
  | normal =>
    rw [tick_normal P hc hm] at h
    obtain rfl := Host.Outcome.next.inj h
    exact ((s.schedulerTick_outputs P).mono fun _ => Event.noScan_of_inTickNoScan).trans
      (State.outputs_respond_noScan _ .ok [])
  | pairing =>
    rw [tick_pairing P hc hm] at h
    obtain rfl := Host.Outcome.next.inj h
    exact ((s.pairingTick_outputs P (hlive hm)).mono fun _ => Event.noScan_of_inTickNoScan).trans
      (State.outputs_respond_noScan _ .ok [])

/-- An answer blind to the session has made no radio call. -/
theorem SessionBlind.outputs_noScan {r : Registers} {s t : State} {y : Result} (h : SessionBlind r s (.next t) y) :
    s.Outputs Event.noScan t := by
  cases h with
  | next seq q evs hevs => exact ⟨rfl, rfl, evs, rfl, fun e he => Event.noScan_of_not_isRadio (hevs e he)⟩

/-- The producer operations make no radio call at all (43_pairing R171). -/
theorem producer_outputs_noScan {i : Instr} (hi : i.opcode ∉ [opSetup, opTick, opPair]) {s t : State}
    (h : exec i s = .next t) : s.Outputs Event.noScan t := by
  have hblind := exec_sessionBlind hi s.toRegisters s
  rw [h] at hblind
  exact hblind.outputs_noScan

/-! ### All operations (70_reset R263) -/

/-- Where an operation is not the timeout's tick, its outputs are free of START_SCAN. -/
theorem exec_outputs_noScan {i : Instr} {s t : State} (h : exec i s = .next t)
    (hlive : i = .tick → s.mode = .pairing → s.elapsed s.pairT0 < tSession) : s.Outputs Event.noScan t := by
  cases i with
  | setup key cap intMin intMax advDur advGap => exact setup_outputs_noScan h
  | tick => exact tick_outputs_noScan h (hlive rfl)
  | pair lid gid => exact pair_outputs_noScan h
  | _ => exact producer_outputs_noScan (by simp only [Instr.opcode]; decide) h

/-- Settles O58: an operation that is not the timeout's tick would have put no such call on the trace
(`exec_outputs_noScan`). -/
theorem scanningStartsOnlyAtTheTimeout : Obligations.ScanningStartsOnlyAtTheTimeout := by
  rintro i s t hexec ⟨e, he, hscan⟩
  by_contra htimeout
  have hlive : i = .tick → s.mode = .pairing → s.elapsed s.pairT0 < tSession := fun hi hm =>
    Nat.not_le.mp fun hlate => htimeout ⟨hi, hm, hlate⟩
  have hnone := e.noScan_iff.mp ((exec_outputs_noScan hexec hlive).of_mem_drop he)
  exact Bool.false_ne_true (hnone.symm.trans hscan)

end Sys2Proof.Machine
end
